-- ==== Sys2Proof/Config.lean ====
section
/-! DEFINITION. What is fixed for one engine: the parameters of 00_scope.md R6, in two records. `EngineParams` holds sizes,
clamps and ratios; `NumCfg` is the numeric configuration of 40_primitives.md R120, an argument of the step function
`stepWith` (its instances stand in Machine/Primitives.lean). And the record of four bands, and the free value of
20_memory.md R73. -/

namespace Sys2Proof

/-- Four things, one per VAD band (R39): `b0` is 0-1 kHz, `b1` 1-2 kHz, `b2` 2-4 kHz, `b3` 4-8 kHz. -/
structure Quad (α : Type) where
  b0 : α
  b1 : α
  b2 : α
  b3 : α
deriving DecidableEq, Repr

/-- The entry of one band. -/
def Quad.get {α : Type} (q : Quad α) : Fin 4 → α
  | 0 => q.b0
  | 1 => q.b1
  | 2 => q.b2
  | 3 => q.b3

/-- One value for every band. -/
def Quad.const {α : Type} (a : α) : Quad α := ⟨a, a, a, a⟩

/-- The same function on every band. -/
def Quad.map {α β : Type} (f : α → β) (q : Quad α) : Quad β := ⟨f q.b0, f q.b1, f q.b2, f q.b3⟩

/-- A property of every band. -/
abbrev Quad.All {α : Type} (p : α → Prop) (q : Quad α) : Prop := p q.b0 ∧ p q.b1 ∧ p q.b2 ∧ p q.b3

end Sys2Proof

namespace Sys2Proof.Config

/-- FREE VALUE (log entry 2). What a buffer byte that nothing has written since the `era`-th hardware reset holds, by
its address: "some fixed but unknown value until written" (20_memory.md R73, U1). No body: nothing can evaluate it. -/
opaque unwrittenByte : (era addr : Nat) → BitVec 8

/-- The parameters of 00_scope.md R6 that are no part of the numeric configuration (R120): sizes, clamps, ratios. Each
field is the parameter of R6 with the name given. -/
structure EngineParams where
  /-- `W_REG` (D1): the width of the type `Word` -/
  wReg : Nat
  /-- `ADDR_BITS` (D2) -/
  addrBits : Nat
  /-- `PKT_CAP` (D7) -/
  pktCap : Nat
  /-- `FRM_SLOTS` (doc) -/
  frmSlots : Nat
  /-- `FRM_SLOT_BYTES` (D7) -/
  frmSlotBytes : Nat
  /-- `MAX_FRAME_BYTES` (doc, R95) -/
  maxFrameBytes : Nat
  /-- `SMP_CAP` (D7) -/
  smpCap : Nat
  /-- lsb depth range (R34) -/
  lsbDepthMin : Int
  lsbDepthMax : Int
  /-- bitrate clamp in bit/s (R29) -/
  bitrateMin : Int
  bitrateMax : Int
  /-- complexity clamp (R31) -/
  complexityMin : Int
  complexityMax : Int
  /-- packet-loss clamp in percent (R33) -/
  lossPctMin : Int
  lossPctMax : Int
  /-- `LOSS_MIN_PCT` (R181) -/
  lossMinPct : Nat
  /-- LBRR ratio (R183) -/
  lbrrNum : Nat
  lbrrDen : Nat
  /-- LBRR floor in bit/s (R183) -/
  lbrrFloor : Nat
  /-- CVBR tolerance in percent (R193) -/
  cvbrTolPct : Nat
deriving DecidableEq, Repr

/-- The spec's values (R6). -/
def specParams : EngineParams where
  wReg := 32
  addrBits := 17
  pktCap := 4096
  frmSlots := 3
  frmSlotBytes := 1280
  maxFrameBytes := 1275
  smpCap := 5760
  lsbDepthMin := 8
  lsbDepthMax := 24
  bitrateMin := 6000
  bitrateMax := 510000
  complexityMin := 0
  complexityMax := 10
  lossPctMin := 0
  lossPctMax := 100
  lossMinPct := 1
  lbrrNum := 3
  lbrrDen := 5
  lbrrFloor := 6000
  cvbrTolPct := 15

/-- The byte address space (20_memory.md R60). -/
def addrSpace : Nat := 2 ^ specParams.addrBits
/-- Bytes of the packet buffer; also the largest `OUT_CAP`, `PKT_LEN` and pad target. -/
def pktCap : Nat := specParams.pktCap
/-- Sample words of `SMP` and of `FECBUF`. -/
def smpCap : Nat := specParams.smpCap
/-- Bytes of one staging slot. -/
def frmSlotBytes : Nat := specParams.frmSlotBytes
/-- Staging slots. -/
def frmSlots : Nat := specParams.frmSlots
/-- The longest frame of a packet. -/
def maxFrameBytes : Nat := specParams.maxFrameBytes
/-- The least packet loss for which redundancy is wanted. -/
def lossMinPct : Nat := specParams.lossMinPct
/-- The floor of the redundancy bitrate. -/
def lbrrFloor : Nat := specParams.lbrrFloor

/-- Byte addresses of the buffers (20_memory.md R61). -/
def pktBase : Nat := 0x1000
/-- First byte of staging slot 0 (R61); slot `j` is `frmSlotBytes * j` further. -/
def frmBase : Nat := 0x2000
/-- First byte of `SMP` (R61). -/
def smpBase : Nat := 0x8000
/-- First byte of `FECBUF` (R61). -/
def fecBase : Nat := 0x10000

/-- The numeric configuration of 40_primitives.md R120: "the arithmetic the source leaves open as one record". Each
field is the parameter of R6 with the name given. -/
structure NumCfg where
  /-- `mulQ16` instance (R115). -/
  mulQ16 : Int → Int → Int
  /-- `SIGM_POS_Q15`, `SIGM_NEG_Q15`, `SIGM_SLOPE_Q10` (R117). -/
  sigmPos : List Int
  sigmNeg : List Int
  sigmSlope : List Int
  /-- The sigmoid's clip point (R117). -/
  sigmClip : Int
  /-- `LOG_CORR` (R118). -/
  logCorr : Int
  /-- `SQRT_ODD`, `SQRT_EVEN`, `SQRT_FRAC` (R119). -/
  sqrtOdd : Int
  sqrtEven : Int
  sqrtFrac : Int
  /-- `VAD_MAX_LEN`, the longest frame in samples (R131, R161). -/
  vadMaxLen : Nat
  /-- `VAD_N_BANDS`, the divisor of the mean square SNR (R140); the bands themselves are the entries of a `Quad`. -/
  vadNBands : Nat
  /-- `VAD_SUBFRAMES` (R136). -/
  vadSubframes : Nat
  /-- `A_FB1_20`, `A_FB1_21` (R134). -/
  aFb20 : Int
  aFb21 : Int
  /-- `TILT_W` (R139). -/
  tiltW : Quad Int
  /-- `NOISE_BIAS_NUM`, `NL_INIT_FACTOR`, `COUNTER_INIT`, `SMTH_INIT_Q8` (R146). -/
  noiseBiasNum : Int
  nlInitFactor : Int
  counterInit : Int
  smthInitQ8 : Int
  /-- `COUNTER_LIMIT`, `NOISE_SMOOTH_COEF_Q16`, `NL_MAX` (R137). -/
  counterLimit : Int
  noiseSmoothCoefQ16 : Int
  nlMax : Int
  /-- `SNR_FACTOR_Q16`, `NEG_OFFSET_Q5` (R140). -/
  snrFactorQ16 : Int
  negOffsetQ5 : Int
  /-- `SNR_SMOOTH_COEF_Q18` (R143). -/
  snrSmoothCoefQ18 : Int
  /-- `TILT_SMALL_NRG` (R139). -/
  tiltSmallNrg : Int
  /-- `SPEECH_NRG_SMALL` (R141). -/
  speechNrgSmall : Int
  /-- `VAD_ACTIVE_THRES_Q8` (R142). -/
  vadActiveThresQ8 : Int
  /-- `DTX_T_Q1`, `DTX_TMAX_Q1` (R168). -/
  dtxTQ1 : Nat
  dtxTmaxQ1 : Nat
  /-- `PEAK_DECAY_Q15`, `PROB_CUT_Q15` (R166). -/
  peakDecayQ15 : Nat
  probCutQ15 : Nat
  /-- `PSNR_K_Q8`, `PEAK_BOOST_Q8` (R167). -/
  psnrKQ8 : Nat
  peakBoostQ8 : Nat
  /-- `CN_INTERVAL`, the reset value of `CFG_CN_INTERVAL_Q1` (R35). -/
  cnIntervalReset : Nat

end Sys2Proof.Config
end

