-- ==== Sys2Proof/Word.lean ====
section
/-! DEFINITION. The word types of the engine (00_scope.md R6, R7, R8). -/

namespace Sys2Proof

/-- One byte of a packet or of a staging slot (R63). -/
abbrev Byte := BitVec 8

/-- One register of the engine, as wide as `W_REG` of the configuration says (R6, D1): 32 bits in the spec's instance.
The width stands in the type as the number itself. Every conversion to a register takes its width from this type. -/
abbrev Word := BitVec (reduceProj% (delta% Config.specParams).wReg)

/-- The energies of the DTX record, two registers each (R40). -/
abbrev Word64 := BitVec 64

end Sys2Proof
end

