-- ==== Sys2Proof/Syntax.lean ====
section
/-! DEFINITION. The commands of the engine (30_encoding.md R81), one constructor per row of spec/opcode_table.json. -/

namespace Sys2Proof

/-- A command. None carries an operand but `fecRecord`, whose one flag is FLG bit 0 (R82); every other operand is read
from the registers the command's rule names (R85). -/
inductive Instr where
  /-- `NOP` (R230) -/
  | nop
  /-- `RESET` (R231) -/
  | reset
  /-- `VAD.INIT` (R146) -/
  | vadInit
  /-- `VAD.EVAL` (R130) -/
  | vadEval
  /-- `DTX.DECIDE` (R160) -/
  | dtxDecide
  /-- `FEC.QUERY` (R181) -/
  | fecQuery
  /-- `FEC.RECORD` (R182), with its `wasActive` flag -/
  | fecRecord (wasActive : Bool)
  /-- `FEC.RATE` (R183) -/
  | fecRate
  /-- `BRC.TARGET` (R190) -/
  | brcTarget
  /-- `BRC.CONFORM` (R192) -/
  | brcConform
  /-- `PKT.PAD` (R196) -/
  | pktPad
  /-- `PKT.CHECK` (R210) -/
  | pktCheck
  /-- `PKT.TOC` (R215) -/
  | pktToc
  /-- `PKT.BUILD` (R216) -/
  | pktBuild
  /-- `PKT.CN` (R217) -/
  | pktCn
deriving DecidableEq, Repr

end Sys2Proof
end

