-- ==== Sys2Proof/WellFormed.lean ====
section
/-! DEFINITION. Which command words are legal (30_encoding.md R80 to R83), on the three fields of format `C`. An `Instr`
needs no check of its own: its only field is the Bool `wasActive`, so an illegal flag cannot be written down. -/

namespace Sys2Proof

/-- The three fields of a command word (R80): `OPC` 7:0, `FLG` 15:8, `ZERO` 31:16. -/
structure CommandWord where
  opc : BitVec 8
  flg : BitVec 8
  zero : BitVec 16
deriving DecidableEq, Repr

/-- The operation codes of R81, in the table's order. -/
def opcodes : List (BitVec 8) :=
  [0x00, 0x01, 0x02, 0x10, 0x20, 0x30, 0x31, 0x32, 0x40, 0x41, 0x42, 0x50, 0x51, 0x52, 0x53]

/-- `ZERO` must be 0 (R80, R83). -/
def CommandWord.zeroOk (c : CommandWord) : Bool := c.zero == 0

/-- `OPC` must be in the table (R81, R83). -/
def CommandWord.opcOk (c : CommandWord) : Bool := opcodes.contains c.opc

/-- The `FLG` bits R82 allows: bit 0 for `FEC.RECORD` (0x31), none for any other command. -/
def CommandWord.flgOk (c : CommandWord) : Bool :=
  if c.opc == 0x31 then c.flg == 0 || c.flg == 1 else c.flg == 0

/-- A legal command word: one of the 15 commands (R83). -/
def CommandWord.wellFormed (c : CommandWord) : Bool := c.zeroOk && c.opcOk && c.flgOk

end Sys2Proof
end

