-- ==== Sys2Proof/Decode.lean ====
section
/-! DEFINITION. Decoding a command word and encoding a command (30_encoding.md R80 to R83, spec/opcode_table.json). A
command is one 32-bit word, the data of the write to `CMD` (20_memory.md R69). -/

namespace Sys2Proof

/-- Why a word is no command. All three raise `IllegalCommand` (R83, R258); the name says which check failed first. -/
inductive DecodeError where
  /-- `ZERO` is not 0. -/
  | zeroField
  /-- `OPC` is not in the table of R81. -/
  | unknownOpcode
  /-- `FLG` has a bit set that R82 requires to be 0. -/
  | flagBits
deriving DecidableEq, Repr

/-- The fields of a word (R80). -/
def commandFields (w : Word) : CommandWord :=
  ⟨w.extractLsb' 0 8, w.extractLsb' 8 8, w.extractLsb' 16 16⟩

/-- The command without flags of an operation code other than `FEC.RECORD`'s (R81). -/
def opcodeCommand (opc : BitVec 8) : Option Instr :=
  match opc.toNat with
  | 0x00 => some .nop
  | 0x01 => some .reset
  | 0x02 => some .vadInit
  | 0x10 => some .vadEval
  | 0x20 => some .dtxDecide
  | 0x30 => some .fecQuery
  | 0x32 => some .fecRate
  | 0x40 => some .brcTarget
  | 0x41 => some .brcConform
  | 0x42 => some .pktPad
  | 0x50 => some .pktCheck
  | 0x51 => some .pktToc
  | 0x52 => some .pktBuild
  | 0x53 => some .pktCn
  | _ => none

/-- Decode the fields of a word (R81 to R83). -/
def decodeFields (c : CommandWord) : Except DecodeError Instr :=
  if c.zero ≠ 0 then .error .zeroField
  else if c.opc = 0x31 then
    if c.flg = 0 then .ok (.fecRecord false)
    else if c.flg = 1 then .ok (.fecRecord true)
    else .error .flagBits
  else
    match opcodeCommand c.opc with
    | none => .error .unknownOpcode
    | some i => if c.flg = 0 then .ok i else .error .flagBits

/-- The decoder: total, every word is one of the 15 commands or rejected by name (R83). -/
def decode (w : Word) : Except DecodeError Instr := decodeFields (commandFields w)

/-- The operation code of a command (R81). -/
def Instr.opc : Instr → BitVec 8
  | .nop => 0x00
  | .reset => 0x01
  | .vadInit => 0x02
  | .vadEval => 0x10
  | .dtxDecide => 0x20
  | .fecQuery => 0x30
  | .fecRecord _ => 0x31
  | .fecRate => 0x32
  | .brcTarget => 0x40
  | .brcConform => 0x41
  | .pktPad => 0x42
  | .pktCheck => 0x50
  | .pktToc => 0x51
  | .pktBuild => 0x52
  | .pktCn => 0x53

/-- The flag bits of a command (R82). -/
def Instr.flg : Instr → BitVec 8
  | .fecRecord true => 1
  | _ => 0

/-- The encoder: `ZERO ++ FLG ++ OPC` (R80). -/
def encode (i : Instr) : Word := (0 : BitVec 16) ++ i.flg ++ i.opc

/-- The host's question: the instruction the decoder reads from the `nbits` low bits of `w` (every bit above is 0). -/
def decodeTableWord (nbits w : Nat) : Option Instr :=
  match decode (BitVec.ofNat _ (w % 2 ^ nbits)) with
  | .ok i => some i
  | .error _ => none

end Sys2Proof
end

