-- ==== Sys2Proof/Machine/Primitives.lean ====
section
/-! DEFINITION. The fixed-point primitives of 40_primitives.md, exact integer arithmetic in the notation of 00_scope.md
R8, and the spec's instance of the numeric configuration (R6, R120). -/

namespace Sys2Proof.Machine

open Sys2Proof.Config

/-- Arithmetic right shift: floor division by a power of two (R8). -/
def asr (v : Int) (k : Nat) : Int := v / 2 ^ k

/-- Left shift: multiplication by a power of two, before any wrap (R8). -/
def shl (v : Int) (k : Nat) : Int := v * 2 ^ k

/-- `wrap32` (R8): the value in [-2^31, 2^31 - 1] congruent modulo 2^32. -/
def wrap32 (v : Int) : Int := v.bmod (2 ^ 32)

/-- An int32 register's new contents: the two's-complement word, which is `wrap32` of the value (R8). -/
def toWord (v : Int) : Word := BitVec.ofInt _ v

/-- 2^31 - 1. -/
def int32Max : Int := 2 ^ 31 - 1

/-- `sat16` (R111). -/
def sat16 (v : Int) : Int := min (max v (-32768)) 32767

/-- `addPosSat32` (R112). -/
def addPosSat32 (a b : Int) : Int := min (a + b) int32Max

/-- `rshiftRound` (R113), `s >= 1`. -/
def rshiftRound (v : Int) (s : Nat) : Int := asr (asr v (s - 1) + 1) 1

/-- `div32` (R114): truncated toward zero. No use divides by zero (R114); Lean's quotient there is 0 (log entry 10). -/
def div32 (a b : Int) : Int := a.tdiv b

/-- `mulQ16`, the spec's instance (R115): round to nearest, ties toward plus infinity. -/
def mulQ16Round (a b : Int) : Int := wrap32 (asr (a * b + 32768) 16)

/-- `mulQ16_floor`, the alternative instance (R115, R120). -/
def mulQ16Floor (a b : Int) : Int := wrap32 (asr (a * b) 16)

/-- The leading zeros of `x >= 1` as a 32-bit word, first result of `clzFrac` (R116). -/
def clz32 (x : Int) : Nat := 31 - x.toNat.log2

/-- The 7 bits after the leading one, second result of `clzFrac` (R116). -/
def frac7 (x : Int) : Int :=
  let e := x.toNat.log2
  (if 7 ≤ e then asr x (e - 7) else shl x (7 - e)) % 128

/-- `sigmoid15` (R117). -/
def sigmoid15 (P : NumCfg) (x : Int) : Int :=
  if x < 0 then
    if -x ≥ P.sigmClip then 0
    else P.sigmNeg.getD (asr (-x) 5).toNat 0 - P.sigmSlope.getD (asr (-x) 5).toNat 0 * ((-x) % 32)
  else
    if x ≥ P.sigmClip then 32767
    else P.sigmPos.getD (asr x 5).toNat 0 + P.sigmSlope.getD (asr x 5).toNat 0 * (x % 32)

/-- `log2Approx128` (R118). -/
def log2Approx128 (P : NumCfg) (x : Int) : Int :=
  if x ≤ 0 then 0
  else frac7 x + asr (frac7 x * (128 - frac7 x) * P.logCorr) 16 + shl (31 - clz32 x) 7

/-- `isqrtApprox` (R119). -/
def isqrtApprox (P : NumCfg) (x : Int) : Int :=
  if x ≤ 0 then 0
  else
    let y := asr (if clz32 x % 2 = 1 then P.sqrtOdd else P.sqrtEven) (clz32 x / 2)
    y + asr (y * (P.sqrtFrac * frac7 x)) 16

/-- The spec's instance of the numeric configuration: the values of R6 and the rounding multiply (R115, R120; log
entry 9). -/
def specNum : NumCfg where
  mulQ16 := mulQ16Round
  sigmPos := [16384, 23955, 28861, 31213, 32178, 32548]
  sigmNeg := [16384, 8812, 3906, 1554, 589, 219]
  sigmSlope := [237, 153, 73, 30, 12, 7]
  sigmClip := 192
  vadMaxLen := 960
  vadNBands := 4
  vadSubframes := 4
  logCorr := 179
  sqrtOdd := 32768
  sqrtEven := 46214
  sqrtFrac := 213
  aFb20 := 10788
  aFb21 := -24290
  tiltW := ⟨30000, 6000, -12000, -12000⟩
  noiseBiasNum := 50
  nlInitFactor := 100
  counterInit := 15
  smthInitQ8 := 25600
  counterLimit := 1000
  noiseSmoothCoefQ16 := 1024
  nlMax := 0x00FFFFFF
  snrFactorQ16 := 45000
  negOffsetQ5 := 128
  snrSmoothCoefQ18 := 4096
  tiltSmallNrg := 2 ^ 20
  speechNrgSmall := 16384
  vadActiveThresQ8 := 13
  dtxTQ1 := 400
  dtxTmaxQ1 := 1200
  peakDecayQ15 := 32735
  probCutQ15 := 3277
  psnrKQ8 := 80955
  peakBoostQ8 := 384
  cnIntervalReset := 800

/-- The spec's instance with the truncating multiply instead (R120, conflict C8). The machine does not run it; it is
there for results that hold under both (`stepWith floorNum` runs it). -/
def floorNum : NumCfg := { specNum with mulQ16 := mulQ16Floor }

end Sys2Proof.Machine
end

