-- ==== Sys2Proof/Machine/Registers.lean ====
section
/-! DEFINITION. The registers of the engine (10_state.md) as five records of plain data. -/

namespace Sys2Proof.Machine

/-- `CFG_MODE` (R26). -/
inductive Mode where
  | auto
  | speech
  | transform
  | hybrid
deriving DecidableEq, Repr

/-- The three coders a frame can be dispatched to: `CFG_MODE` without Auto (R210, R214). -/
inductive Coder where
  | speech
  | transform
  | hybrid
deriving DecidableEq, Repr

/-- `CFG_BANDWIDTH` (R27). -/
inductive Bandwidth where
  | narrow
  | medium
  | wide
  | superWide
  | full
deriving DecidableEq, Repr

/-- `CFG_RATE_MODE` (R30). -/
inductive RateMode where
  | vbr
  | cvbr
  | cbr
deriving DecidableEq, Repr

/-- `CFG_FLAGS` (R32): bits 0 to 3; bits 31:4 do not exist. -/
structure CfgFlags where
  fecEn : Bool
  dtxEn : Bool
  lfe : Bool
  predDisabled : Bool
deriving DecidableEq, Repr

/-- The configuration record, EncoderConfig (R24 to R35). -/
structure ConfigRegs where
  /-- `CFG_FS_HZ` (R24) -/
  fsHz : Word
  /-- `CFG_CHANNELS` (R25) -/
  channels : Word
  /-- `CFG_MODE` (R26) -/
  mode : Mode
  /-- `CFG_BANDWIDTH` (R27) -/
  bandwidth : Bandwidth
  /-- `CFG_FRAME_SIZE` (R28) -/
  frameSize : Word
  /-- `CFG_BITRATE` (R29) -/
  bitrate : Word
  /-- `CFG_RATE_MODE` (R30) -/
  rateMode : RateMode
  /-- `CFG_COMPLEXITY` (R31) -/
  complexity : Word
  /-- `CFG_FLAGS` (R32) -/
  flags : CfgFlags
  /-- `CFG_LOSS_PCT` (R33) -/
  lossPct : Word
  /-- `CFG_LSB_DEPTH` (R34) -/
  lsbDepth : Word
  /-- `CFG_CN_INTERVAL_Q1` (R35) -/
  cnIntervalQ1 : Word
deriving DecidableEq, Repr

/-- `STATUS` (R36): `ERR` is bits 3:0, `VALID` is bit 8, other bits read 0. -/
structure StatusReg where
  err : BitVec 4
  valid : Bool
deriving DecidableEq, Repr

/-- The command block and the interrupt registers (R21, R22, R36, R37). -/
structure CommandRegs where
  /-- `CMD`: the last word written (R36) -/
  cmd : Word
  arg0 : Word
  arg1 : Word
  arg2 : Word
  status : StatusReg
  res0 : Word
  res1 : Word
  errInfo : Word
  /-- `CMD_SEQ` (R22) -/
  cmdSeq : Word
  /-- `IRQ_EN.ERR` (R37) -/
  irqEn : Bool
  /-- `IRQ_PEND.ERR` (R37) -/
  irqPend : Bool
deriving DecidableEq, Repr

/-- The collaborator and buffer-management registers (R38). -/
structure CollabRegs where
  anaValid : Bool
  anaProbQ15 : Word
  subencStatus : Word
  outCap : Word
  pktLen : Word
  smpCount : Word
  frmLen0 : BitVec 16
  frmLen1 : BitVec 16
  frmLen2 : BitVec 16
deriving DecidableEq, Repr

/-- A 2-element all-pass state (R39, R134). -/
structure AllPass where
  s0 : Word
  s1 : Word
deriving DecidableEq, Repr

/-- The VAD record, VADState (R39). `int32` registers hold two's-complement words. -/
structure VadRegs where
  ana0 : AllPass
  ana1 : AllPass
  ana2 : AllPass
  /-- `VAD_HP_STATE`, int16 -/
  hpState : BitVec 16
  counter : Word
  nl : Quad Word
  invNl : Quad Word
  nrgRatioSmthQ8 : Quad Word
  noiseBias : Quad Word
  xnrgSubfr : Quad Word
  qualityQ15 : Quad Word
  saQ8 : Word
  tiltQ15 : Word
  active : Bool
deriving DecidableEq, Repr

/-- `DTX_STAT` (R40): bits 0 to 4 and bit 8; other bits read 0. -/
structure DtxStat where
  inDtx : Bool
  lastSuppress : Bool
  lastEmitCn : Bool
  lastActive : Bool
  lastSilence : Bool
  decisionValid : Bool
deriving DecidableEq, Repr

/-- The DTX record, DTXState (R40). -/
structure DtxRegs where
  durQ1 : Word
  stat : DtxStat
  peak : Word64
  frameDurQ1 : Word
  cnElapsedQ1 : Word
  energy : Word64
deriving DecidableEq, Repr

/-- The FEC record, FECState (R41): `havePrev` and `prevActive` are bits 0 and 1 of `FEC_STAT`. -/
structure FecRegs where
  havePrev : Bool
  prevActive : Bool
  prevLen : Word
  frameCount : Word
deriving DecidableEq, Repr

end Sys2Proof.Machine
end

