-- ==== Sys2Proof/Machine/Reset.lean ====
section
/-! DEFINITION. The records after hardware reset (10_state.md R24 to R41, R45; 70_reset_and_hazards.md R280), over the
numeric configuration (40_primitives.md R120) where a reset value is one of its parameters. -/

namespace Sys2Proof.Machine

open Sys2Proof.Config

/-- The configuration record after hardware reset (R24 to R35, R280); the comfort-noise interval is a parameter (R6). -/
def initConfig (P : NumCfg) : ConfigRegs where
  fsHz := 48000
  channels := 1
  mode := .auto
  bandwidth := .full
  frameSize := 960
  bitrate := 64000
  rateMode := .vbr
  complexity := 10
  flags := ⟨false, false, false, false⟩
  lossPct := 0
  lsbDepth := 24
  cnIntervalQ1 := BitVec.ofNat _ P.cnIntervalReset

/-- The configuration record after hardware reset, spec instance. -/
def resetConfig : ConfigRegs := initConfig specNum

/-- The command block and interrupt registers after hardware reset (R36, R37). -/
def resetCommand : CommandRegs where
  cmd := 0
  arg0 := 0
  arg1 := 0
  arg2 := 0
  status := ⟨0, false⟩
  res0 := 0
  res1 := 0
  errInfo := 0
  cmdSeq := 0
  irqEn := false
  irqPend := false

/-- The collaborator registers after hardware reset (R38): all 0 but `OUT_CAP`, which is `PKT_CAP`. -/
def resetCollab : CollabRegs where
  anaValid := false
  anaProbQ15 := 0
  subencStatus := 0
  outCap := BitVec.ofNat _ pktCap
  pktLen := 0
  smpCount := 0
  frmLen0 := 0
  frmLen1 := 0
  frmLen2 := 0

/-- The DTX record all zero (R40, R280, R231). -/
def resetDtx : DtxRegs where
  durQ1 := 0
  stat := ⟨false, false, false, false, false, false⟩
  peak := 0
  frameDurQ1 := 0
  cnElapsedQ1 := 0
  energy := 0

/-- The FEC record all zero (R41, R184, R280). -/
def resetFec : FecRegs where
  havePrev := false
  prevActive := false
  prevLen := 0
  frameCount := 0

/-- The noise bias of band `b`: `max(div32(50, b + 1), 1)` (R146). -/
def initBias (P : NumCfg) (b : Int) : Int := max (div32 P.noiseBiasNum (b + 1)) 1

/-- The VAD record that `VAD.INIT` and hardware reset leave, computed from the numeric configuration (R39, R45, R146). -/
def vadInit (P : NumCfg) : VadRegs :=
  let bias : Quad Int := ⟨initBias P 0, initBias P 1, initBias P 2, initBias P 3⟩
  let nl := bias.map (fun v => P.nlInitFactor * v)
  { ana0 := ⟨0, 0⟩
    ana1 := ⟨0, 0⟩
    ana2 := ⟨0, 0⟩
    hpState := 0
    counter := toWord P.counterInit
    nl := nl.map toWord
    invNl := nl.map (fun v => toWord (div32 int32Max v))
    nrgRatioSmthQ8 := Quad.const (toWord P.smthInitQ8)
    noiseBias := bias.map toWord
    xnrgSubfr := Quad.const 0
    qualityQ15 := Quad.const 0
    saQ8 := 0
    tiltQ15 := 0
    active := false }

/-- The VAD record after hardware reset, spec instance: the reset column of R39 (`resetVad_eq`). -/
def resetVad : VadRegs := vadInit specNum

end Sys2Proof.Machine
end

