-- ==== Sys2Proof/Machine/State.lean ====
section
/-! DEFINITION. The state of the engine (10_state.md): the five records of Registers.lean, the buffers in one memory, and
three fields of the model's own. All of it plain data. -/

namespace Sys2Proof.Machine

/-- The four buffers (R42, R61) as the list of the bytes written since hardware reset, keyed by byte address, addresses
strictly rising. An unlisted address holds no known value: its byte is the free value of R73 (log entry 2). A sample
word is its three low bytes (R64, log entry 7). -/
abbrev Memory := List Host.Cell

/-- What the host does to the engine in one step (R16): a write or a read at the slave port (R62), of any address and
size so that the ones the port refuses can be written down, or a pulse on the reset input (R280). -/
inductive HostAccess where
  | write (addr size : Nat) (data : Word)
  | read (addr size : Nat)
  | hardwareReset
deriving DecidableEq, Repr

/-- What the port answered to the last access (model's own, log entry 6): nothing yet, a write taken, or the data of a
read. -/
inductive PortAnswer where
  | none
  | written
  | data (w : Word)
deriving DecidableEq, Repr

/-- The whole state. -/
structure State where
  /-- configuration record -/
  cfg : ConfigRegs
  /-- command block and interrupt registers -/
  io : CommandRegs
  /-- collaborator and buffer-management registers -/
  col : CollabRegs
  /-- VAD record -/
  vad : VadRegs
  /-- DTX record -/
  dtx : DtxRegs
  /-- FEC record -/
  fec : FecRegs
  /-- `PKT`, `FRM`, `SMP`, `FECBUF` -/
  mem : Memory
  /-- MODEL's own: hardware resets so far, the argument of the free value (log entry 3) -/
  era : Nat
  /-- MODEL's own: the accesses the host will make, oldest first (log entry 1) -/
  pending : List HostAccess
  /-- MODEL's own: the port's answer to the last access (log entry 6) -/
  port : PortAnswer
deriving DecidableEq, Repr

/-- The engine has no fault: every command completes and the engine never stops (R250, R287, end of section 1 of
93_implementation_defined.md). Command errors are completion codes (`CmdError`, R251). Nothing raises this; safe. -/
inductive Fault where
deriving DecidableEq, Repr

/-- Why a step is refused. -/
inductive Refusal where
  /-- An instruction without a meaning; no arm of `exec` answers it. Safe. -/
  | notModelled (mnemonic : String)
  /-- Raised by `step` for a host access that is not an aligned 32-bit access inside the 17-bit space: "refused: the
  port answers with a bus error, no engine state changes" (R62, U5, log entry 4). Safe: the run stops where the
  hardware would answer the bus error and go on. -/
  | busError (addr size : Nat)
deriving DecidableEq, Repr

/-- The machine right after hardware reset (R280, R281), over the numeric configuration: no buffer byte written, nothing
pending. -/
def State.resetWith (P : Config.NumCfg) : State where
  cfg := initConfig P
  io := resetCommand
  col := resetCollab
  vad := vadInit P
  dtx := resetDtx
  fec := resetFec
  mem := []
  era := 0
  pending := []
  port := .none

/-- The machine right after hardware reset, spec instance. -/
def State.reset : State := State.resetWith specNum

end Sys2Proof.Machine
end

