-- ==== Sys2Proof/Machine/Ops.lean ====
section
/-! DEFINITION. The named operations over the buffers (20_memory.md R63, R64, R72, R73) and the completion of a command
(60_exceptions.md R256): success, and the ONE operation that takes an error. There is no return from an error: nothing
is saved and there is no return instruction (R250, R269). -/

namespace Sys2Proof.Machine

open Sys2Proof.Config

/-! ### Memory -/

/-- The byte listed at an address, if any. -/
def Memory.byte? (m : Memory) (a : Nat) : Option Byte :=
  match m with
  | [] => none
  | (k, b) :: rest => if k = a then some b else Memory.byte? rest a

/-- The canonical form: addresses strictly rising, so at most one entry an address. An unlisted address has no known
value, so no entry can equal what it reads as (log entry 2). -/
abbrev Memory.wf (m : Memory) : Prop := m.Pairwise (fun x y => x.1 < y.1)

/-- Replace every entry with an address in `[lo, hi)` by `cells`. -/
def Memory.splice (m : Memory) (lo hi : Nat) (cells : Memory) : Memory :=
  m.filter (fun c => decide (c.1 < lo)) ++ cells ++ m.filter (fun c => decide (hi ≤ c.1))

/-- Bytes at rising addresses from `a`. -/
def byteCells (a : Nat) : List Byte → Memory
  | [] => []
  | b :: rest => (a, b) :: byteCells (a + 1) rest

/-- Store bytes at rising addresses from `a`. -/
def Memory.storeBytes (m : Memory) (a : Nat) (bs : List Byte) : Memory :=
  Memory.splice m a (a + bs.length) (byteCells a bs)

/-- The three bytes of each sample word, little-endian (R63, R64); bits 31:24 of the word are no storage. -/
def sampleCells (a : Nat) : List (BitVec 24) → Memory
  | [] => []
  | v :: rest =>
    (a, v.extractLsb' 0 8) :: (a + 1, v.extractLsb' 8 8) :: (a + 2, v.extractLsb' 16 8) :: sampleCells (a + 4) rest

/-- Store sample words at rising word addresses from `a`. -/
def Memory.storeSamples (m : Memory) (a : Nat) (vs : List (BitVec 24)) : Memory :=
  Memory.splice m a (a + 4 * vs.length) (sampleCells a vs)

/-- READ OF ONE BYTE: what was written there, or the free value of an unwritten byte (R73). -/
def State.byteAt (s : State) (a : Nat) : Byte := (Memory.byte? s.mem a).getD (unwrittenByte s.era a)

/-- The 24 bits of the sample word at byte address `a` (R64). -/
def State.sampleAt (s : State) (a : Nat) : BitVec 24 := s.byteAt (a + 2) ++ s.byteAt (a + 1) ++ s.byteAt a

/-- `n` bytes from address `a`. -/
def State.bytesFrom (s : State) (a n : Nat) : List Byte := (List.range n).map (fun k => s.byteAt (a + k))

/-- `n` sample words from address `a`. -/
def State.samplesFrom (s : State) (a n : Nat) : List (BitVec 24) :=
  (List.range n).map (fun i => s.sampleAt (a + 4 * i))

/-- `PKT[0 .. n-1]` (R72). -/
def State.pktBytes (s : State) (n : Nat) : List Byte := s.bytesFrom pktBase n

/-- `FRM[j][0 .. n-1]` (R72). -/
def State.frmBytes (s : State) (j n : Nat) : List Byte := s.bytesFrom (frmBase + frmSlotBytes * j) n

/-- `SMP[0 .. n-1]` as `sext_24` values (R64, R72). -/
def State.smpValues (s : State) (n : Nat) : List Int := (s.samplesFrom smpBase n).map BitVec.toInt

/-- Write a packet from `PKT[0]` on and `PKT_LEN <- len` (R200, R216, R217). -/
def State.storePacket (s : State) (q : List Byte) (len : Nat) : State :=
  { s with
    mem := Memory.storeBytes s.mem pktBase q
    col := { s.col with pktLen := BitVec.ofNat _ len } }

/-- `FECBUF[i] <- SMP[i]` for `i < n` (R182). -/
def State.retainFrame (s : State) (n : Nat) : State :=
  { s with mem := Memory.storeSamples s.mem fecBase (s.samplesFrom smpBase n) }

/-! ### Completion -/

/-- The command errors with their information word (R251). -/
inductive CmdError where
  /-- R252: the offending size -/
  | invalidFrameSize (size : Word)
  /-- R253: `SUBENC_STATUS`, verbatim -/
  | subEncoderFailure (status : Word)
  /-- R254: the number of bytes needed -/
  | bufferTooSmall (needed : Word)
  /-- R255: `PKT_LEN` -/
  | rateViolation (len : Word)
  /-- R257: which operand or check -/
  | badOperand (index : Word)
  /-- R258: the command word -/
  | illegalCommand (word : Word)
  /-- R259: `DTX_STAT` -/
  | sequenceError (dtxStat : Word)
deriving DecidableEq, Repr

/-- `STATUS.ERR` (R251). -/
def CmdError.code : CmdError → BitVec 4
  | .invalidFrameSize _ => 1
  | .subEncoderFailure _ => 2
  | .bufferTooSmall _ => 3
  | .rateViolation _ => 4
  | .badOperand _ => 5
  | .illegalCommand _ => 6
  | .sequenceError _ => 7

/-- `ERR_INFO` (R251). -/
def CmdError.info : CmdError → Word
  | .invalidFrameSize n => n
  | .subEncoderFailure n => n
  | .bufferTooSmall n => n
  | .rateViolation n => n
  | .badOperand n => n
  | .illegalCommand n => n
  | .sequenceError n => n

/-- What a successful command leaves: the state it wrote and its two results (R85, R256). -/
structure Done where
  state : State
  res0 : Word
  res1 : Word

/-- A command body: an error raised before any write (R12, R261), or its effect. -/
abbrev CmdResult := Except CmdError Done

/-- `raise e` when `c` holds (R12). -/
def raiseIf (c : Prop) [Decidable c] (e : CmdError) : Except CmdError Unit := if c then .error e else .ok ()

/-- Successful completion of the command word `w` (R256). -/
def State.complete (s : State) (w res0 res1 : Word) : State :=
  { s with
    io := { s.io with
      status := ⟨0, true⟩
      errInfo := 0
      res0 := res0
      res1 := res1
      cmd := w
      cmdSeq := s.io.cmdSeq + 1 } }

/-- TAKING AN ERROR: the error completion of the command word `w` (R256), the whole entry sequence. -/
def State.takeError (s : State) (w : Word) (e : CmdError) : State :=
  { s with
    io := { s.io with
      status := ⟨e.code, true⟩
      errInfo := e.info
      res0 := 0
      res1 := 0
      irqPend := true
      cmd := w
      cmdSeq := s.io.cmdSeq + 1 } }

/-- The end of every write to `CMD` (R256): a command's body on `s`, completed. An error leaves `s` but for the
completion registers (R261). -/
def State.finish (s : State) (w : Word) : CmdResult → State
  | .ok d => d.state.complete w d.res0 d.res1
  | .error e => s.takeError w e

/-- One command as a step: it always answers a next state (R250, R287). -/
def runCommand (i : Instr) (s : State) (r : CmdResult) : Host.Outcome State Fault Refusal :=
  .next (s.finish (encode i) r)

end Sys2Proof.Machine
end

