-- ==== Sys2Proof/Machine/Flags.lean ====
section
/-! DEFINITION. Every flag word of the engine as its register reads (10_state.md R23, R32, R36, R40, R41), the output
line `irq` (R37, R262) and the result flags of `PKT.PAD` and `BRC.CONFORM` (44_bitrate.md R203). -/

namespace Sys2Proof.Machine

/-- Bit `k` of a word if the flag is set. -/
def flagBit (b : Bool) (k : Nat) : Word := if b then BitVec.twoPow _ k else 0

/-- `CFG_FLAGS` as read (R32). -/
def CfgFlags.word (f : CfgFlags) : Word :=
  flagBit f.fecEn 0 ||| flagBit f.dtxEn 1 ||| flagBit f.lfe 2 ||| flagBit f.predDisabled 3

/-- `CFG_FLAGS` as written: bits 31:4 dropped (R32). -/
def CfgFlags.ofWord (w : Word) : CfgFlags :=
  ⟨w.getLsbD 0, w.getLsbD 1, w.getLsbD 2, w.getLsbD 3⟩

/-- `STATUS` as read (R36). -/
def StatusReg.word (r : StatusReg) : Word := r.err.setWidth _ ||| flagBit r.valid 8

/-- `DTX_STAT` as read (R40). -/
def DtxStat.word (t : DtxStat) : Word :=
  flagBit t.inDtx 0 ||| flagBit t.lastSuppress 1 ||| flagBit t.lastEmitCn 2 ||| flagBit t.lastActive 3
    ||| flagBit t.lastSilence 4 ||| flagBit t.decisionValid 8

/-- `FEC_STAT` as read (R41). -/
def FecRegs.statWord (f : FecRegs) : Word := flagBit f.havePrev 0 ||| flagBit f.prevActive 1

/-- The interrupt output, "at all times" (R37, R262). -/
def State.irq (s : State) : Bool := s.io.irqEn && s.io.irqPend

/-- `inDTX()` (R99, R170, R233). -/
def State.inDtx (s : State) : Bool := s.dtx.stat.inDtx

/-- `vadActivity()` (R99, R233). -/
def State.vadActivity (s : State) : Word := s.vad.saQ8

/-- `PADDED` (R203). -/
def flagPadded : Word := 1
/-- `NOT_EXACT` (R203). -/
def flagNotExact : Word := 2
/-- `OVER_TOL` (R203). -/
def flagOverTol : Word := 4
/-- `UNDER_TOL` (R203). -/
def flagUnderTol : Word := 8

/-- `RES0` of `DTX.DECIDE` (R160, R170). -/
def decideRes0 (suppress emitCn active silence vadActive : Bool) : Word :=
  flagBit suppress 0 ||| flagBit emitCn 1 ||| flagBit active 2 ||| flagBit silence 3 ||| flagBit vadActive 4

end Sys2Proof.Machine
end

