-- ==== Sys2Proof/Machine/Operands.lean ====
section
/-! DEFINITION. Operand forms and codes: the enumeration codes of 10_state.md, the legalisation of configuration writes
(R24 to R35, R38, D11), and the operand checks the command rules share (R85, R257). -/

namespace Sys2Proof.Machine

open Sys2Proof.Config

/-- The code of a coding mode (R26). -/
def Mode.code : Mode → Word
  | .auto => 0
  | .speech => 1
  | .transform => 2
  | .hybrid => 3

/-- The mode of a code; none above 3 (R26). -/
def Mode.ofWord? (w : Word) : Option Mode :=
  match w.toNat with
  | 0 => some .auto
  | 1 => some .speech
  | 2 => some .transform
  | 3 => some .hybrid
  | _ => none

/-- The code of a coder operand (R210, R215). -/
def Coder.code : Coder → Word
  | .speech => 1
  | .transform => 2
  | .hybrid => 3

/-- The coder of an operand in {1, 2, 3} (R210, R215). -/
def Coder.ofWord? (w : Word) : Option Coder :=
  match w.toNat with
  | 1 => some .speech
  | 2 => some .transform
  | 3 => some .hybrid
  | _ => none

/-- The code of a bandwidth (R27). -/
def Bandwidth.code : Bandwidth → Word
  | .narrow => 0
  | .medium => 1
  | .wide => 2
  | .superWide => 3
  | .full => 4

/-- The bandwidth of a code; none above 4 (R27). -/
def Bandwidth.ofWord? (w : Word) : Option Bandwidth :=
  match w.toNat with
  | 0 => some .narrow
  | 1 => some .medium
  | 2 => some .wide
  | 3 => some .superWide
  | 4 => some .full
  | _ => none

/-- The code of a rate mode (R30). -/
def RateMode.code : RateMode → Word
  | .vbr => 0
  | .cvbr => 1
  | .cbr => 2

/-- The rate mode of a code; none above 2 (R30). -/
def RateMode.ofWord? (w : Word) : Option RateMode :=
  match w.toNat with
  | 0 => some .vbr
  | 1 => some .cvbr
  | 2 => some .cbr
  | _ => none

/-- `min(max(sext_32(w), lo), hi)`: the written word read as signed (R29, R31, R33, R34). -/
def clampSigned (lo hi : Int) (w : Word) : Word := toWord (min (max w.toInt lo) hi)

/-- `min(zext_32(w), hi)` (R28, R35, R38). -/
def clampUnsigned (hi : Nat) (w : Word) : Word := BitVec.ofNat _ (min w.toNat hi)

/-- The legal sample rates in Hz (R24). -/
def legalRatesHz : List Nat := [8000, 12000, 16000, 24000, 48000]

/-- The legal sample rates in kHz, an operand of `VAD.EVAL` and `DTX.DECIDE` (R131, R161). -/
def legalRatesKHz : List Nat := [8, 12, 16, 24, 48]

/-- The VAD datapath's bounds on a frame length (R131 step 3, R161): at most 960 and a multiple of 8. -/
abbrev frameLenBad (P : NumCfg) (n : Nat) : Prop := n > P.vadMaxLen ∨ n % 8 ≠ 0

/-- A TOC base operand: bits 31:8 and bits 1:0 are 0 (R216, R217). -/
abbrev tocBaseBad (w : Word) : Prop := w.extractLsb' 8 24 ≠ 0 ∨ w.extractLsb' 0 2 ≠ 0

end Sys2Proof.Machine
end

