-- ==== Sys2Proof/Machine/Packet.lean ====
section
/-! DEFINITION. The packet wire format (30_encoding.md R86 to R95) and the padding construction (44_bitrate.md R197 to
R200), as functions on byte lists: a packet of `n` bytes is `PKT[0 .. n-1]`. -/

namespace Sys2Proof.Machine

open Sys2Proof.Config

/-- `encLen` (R89): one byte up to 251, else two. -/
def encLen (len : Nat) : List Byte :=
  if len ≤ 251 then [BitVec.ofNat 8 len]
  else [BitVec.ofNat 8 (252 + len % 4), BitVec.ofNat 8 ((len - (252 + len % 4)) / 4)]

/-- `|encLen(L)|` (R198). -/
def encLenSize (len : Nat) : Nat := if len ≤ 251 then 1 else 2

/-- `decLen` (R90) on the bytes from the field's start to `end`: the length and the field's size; none when it is cut
short. -/
def decLen : List Byte → Option (Nat × Nat)
  | [] => none
  | b0 :: rest =>
    if b0.toNat ≤ 251 then some (b0.toNat, 1)
    else
      match rest with
      | [] => none
      | b1 :: _ => some (4 * b1.toNat + b0.toNat, 2)

/-- The padding-length field (R92): the number `P` of padding data bytes and the field's size; none when it runs past
the packet. -/
def readPadLen : List Byte → Option (Nat × Nat)
  | [] => none
  | b :: rest =>
    if b.toNat = 255 then
      match readPadLen rest with
      | none => none
      | some (p, u) => some (254 + p, u + 1)
    else some (b.toNat, 1)

/-- `count` frame-length fields in a row (R97, R197): the lengths and the bytes they take. -/
def readLens : (count : Nat) → List Byte → Option (List Nat × Nat)
  | 0, _ => some ([], 0)
  | count + 1, bs =>
    match decLen bs with
    | none => none
    | some (len, u) =>
      match readLens count (bs.drop u) with
      | none => none
      | some (lens, used) => some (len :: lens, u + used)

/-- A parsed packet (R197): the TOC byte, the frame lengths (`M` is their number) and the index of the first frame. -/
structure Parsed where
  toc : Byte
  lens : List Nat
  first : Nat
deriving DecidableEq, Repr

/-- "if any L[k] > 1275: malformed" (R197). -/
def Parsed.checked (r : Parsed) : Option Parsed := if r.lens.all (fun len => decide (len ≤ maxFrameBytes)) then some r else none

/-- Code 1: two frames of equal length (R94, R197). -/
def parseCode1 (toc : Byte) (n : Nat) : Option Parsed :=
  if (n - 1) % 2 ≠ 0 then none else some ⟨toc, [(n - 1) / 2, (n - 1) / 2], 1⟩

/-- Code 2: an explicit first length (R94, R197). -/
def parseCode2 (toc : Byte) (p : List Byte) : Option Parsed :=
  match decLen (p.drop 1) with
  | none => none
  | some (l0, u) => if 1 + u + l0 > p.length then none else some ⟨toc, [l0, p.length - 1 - u - l0], 1 + u⟩

/-- Code 3 after the padding-length field: `m` frames in the bytes `[i, stop)` (R91, R197). -/
def parseCode3Frames (toc : Byte) (p : List Byte) (v : Bool) (m i stop : Nat) : Option Parsed :=
  if stop < i then none
  else if v then
    match readLens (m - 1) ((p.take stop).drop i) with
    | none => none
    | some (lens, used) =>
      if stop < i + used + lens.sum then none
      else some ⟨toc, lens ++ [stop - (i + used) - lens.sum], i + used⟩
  else if (stop - i) % m ≠ 0 then none
  else some ⟨toc, List.replicate m ((stop - i) / m), i⟩

/-- Code 3: count byte, optional padding, frames (R91, R92, R197). -/
def parseCode3 (toc : Byte) (p : List Byte) : Option Parsed :=
  match p with
  | _ :: cb :: _ =>
    let m := (cb.extractLsb' 0 6).toNat
    if m = 0 then none
    else if cb.getLsbD 6 then
      match readPadLen (p.drop 2) with
      | none => none
      | some (padLen, u) =>
        if p.length < padLen then none else parseCode3Frames toc p (cb.getLsbD 7) m (2 + u) (p.length - padLen)
    else parseCode3Frames toc p (cb.getLsbD 7) m 2 p.length
  | _ => none

/-- `parsePacket(n)` on the packet's `n >= 1` bytes (R197); none is "malformed". -/
def parsePacket (p : List Byte) : Option Parsed :=
  match p with
  | [] => none
  | toc :: _ =>
    match (toc.extractLsb' 0 2).toNat with
    | 0 => (Parsed.mk toc [p.length - 1] 1).checked
    | 1 => (parseCode1 toc p.length).bind Parsed.checked
    | 2 => (parseCode2 toc p).bind Parsed.checked
    | _ => (parseCode3 toc p).bind Parsed.checked

/-- The frames of a parsed packet, each `PKT[off[j] .. off[j] + L[j] - 1]` with `off[j+1] = off[j] + L[j]` (R197). -/
def framesAt (p : List Byte) : (off : Nat) → List Nat → List (List Byte)
  | _, [] => []
  | off, len :: lens => (p.drop off).take len :: framesAt p (off + len) lens

/-- The frames of the packet `p` parsed as `r`. -/
def Parsed.frames (r : Parsed) (p : List Byte) : List (List Byte) := framesAt p r.first r.lens

/-- `v'`: stored lengths are needed unless all frames are equally long (R198). -/
def needsLens (lens : List Nat) : Bool := lens.any (fun len => decide (len ≠ lens.headD 0))

/-- The frame-length fields of the re-framed packet: all but the last, if `v'` (R198, R200). -/
def lenFields (lens : List Nat) : List Byte := if needsLens lens then lens.dropLast.flatMap encLen else []

/-- `base`, the re-framed size without padding (R198). -/
def baseSize (lens : List Nat) : Nat :=
  2 + lens.sum + (if needsLens lens then (lens.dropLast.map encLenSize).sum else 0)

/-- `k = floor((T - 1) / 255)` (R92, R199). -/
def padEscapes (t : Nat) : Nat := (t - 1) / 255

/-- `f = T - 1 - 255 k` (R92, R199). -/
def padFinal (t : Nat) : Nat := t - 1 - 255 * padEscapes t

/-- The padding-length field for a total overhead `T` (R92, R199); none for `T = 0`. -/
def padField (t : Nat) : List Byte :=
  if t = 0 then [] else List.replicate (padEscapes t) 255 ++ [BitVec.ofNat 8 (padFinal t)]

/-- The padding data for a total overhead `T`: `P' = T - (k + 1)` zero bytes (R93, R199). -/
def padData (t : Nat) : List Byte := if t = 0 then [] else List.replicate (t - (padEscapes t + 1)) 0

/-- The count byte `128 v' + 64 (T >= 1) + M` (R91, R200). -/
def countByte (v padded : Bool) (m : Nat) : Byte :=
  BitVec.ofNat 8 (128 * v.toNat + 64 * padded.toNat + m)

/-- `Q`, the packet re-framed to exactly `t` bytes (R200). -/
def reframe (r : Parsed) (p : List Byte) (t : Nat) : List Byte :=
  let extra := t - baseSize r.lens
  (r.toc ||| 3) :: countByte (needsLens r.lens) (decide (extra ≥ 1)) r.lens.length ::
    (padField extra ++ lenFields r.lens ++ (r.frames p).flatten ++ padData extra)

/-- A packet of one unit: frame code 0 (R216). -/
def buildSingle (base : Byte) (payload : List Byte) : List Byte := base :: payload

/-- A packet of two or three units: frame code 3, `v = 1`, `p = 0` (R216). -/
def buildMulti (base : Byte) (units : List (List Byte)) : List Byte :=
  (base ||| 3) :: countByte true false units.length ::
    ((units.dropLast.map List.length).flatMap encLen ++ units.flatten)

/-- `total`, the size `PKT.BUILD` is about to write (R216). -/
def buildSize (lens : List Nat) : Nat :=
  if lens.length = 1 then 1 + lens.sum else 2 + (lens.dropLast.map encLenSize).sum + lens.sum

end Sys2Proof.Machine
end

