-- ==== Sys2Proof/Machine/Bitrate.lean ====
section
/-! DEFINITION. The bitrate controller and packet conformance (44_bitrate.md R190 to R203). -/

namespace Sys2Proof.Machine

open Sys2Proof.Config

/-- `targetBytes` with the duration in Q1 milliseconds, saturated (R190). -/
def targetBytes (bitrate durQ1 : Nat) : Nat := min (bitrate * durQ1 / 16000) (2 ^ 32 - 1)

/-- `BRC.TARGET` (R190). -/
def execBrcTarget (s : State) : Host.Outcome State Fault Refusal :=
  runCommand .brcTarget s (.ok ⟨s, BitVec.ofNat _ (targetBytes s.io.arg0.toNat s.io.arg1.toNat), 0⟩)

/-- `lo`, the target less the tolerance, rounded down: `floor(17 t / 20)` (R193, `cvbrLo_eq`). -/
def cvbrLo (t : Nat) : Nat := (100 - specParams.cvbrTolPct) * t / 100

/-- `hi`, the target plus the tolerance, rounded up: `ceil(23 t / 20)` (R193, `cvbrHi_eq`). -/
def cvbrHi (t : Nat) : Nat := ((100 + specParams.cvbrTolPct) * t + 99) / 100

/-- The goal length of `BRC.CONFORM` for a packet of `n` bytes and the target `t` (R192). -/
def conformGoal (mode : RateMode) (n t : Nat) : Nat :=
  match mode with
  | .vbr => n
  | .cbr => if n < t then t else n
  | .cvbr => if n < cvbrLo t then cvbrLo t else n

/-- The `OVER_TOL` flag of `BRC.CONFORM` (R192, R203). -/
def conformOver (mode : RateMode) (n t : Nat) : Word :=
  if mode = .cvbr ∧ n > cvbrHi t then flagOverTol else 0

/-- The body of `BRC.CONFORM` (R192 to R195). -/
def brcConform (s : State) : CmdResult := do
  let n := s.col.pktLen.toNat
  let t := s.io.arg0.toNat
  let mode := s.cfg.rateMode
  raiseIf (s.col.subencStatus ≠ 0) (.subEncoderFailure s.col.subencStatus)
  raiseIf (t > pktCap) (.badOperand 0)
  raiseIf (n = 0) (.badOperand 1)
  raiseIf (mode = .cbr ∧ n > t) (.rateViolation s.col.pktLen)
  let goal := conformGoal mode n t
  let flags := conformOver mode n t
  raiseIf (goal > s.col.outCap.toNat) (.bufferTooSmall (BitVec.ofNat _ goal))
  if goal > n then
    match parsePacket (s.pktBytes n) with
    | none =>
      if mode = .cbr then .error (.rateViolation s.col.pktLen)
      else .ok ⟨s, s.col.pktLen, flags ||| flagNotExact ||| flagUnderTol⟩
    | some r => .ok ⟨s.storePacket (reframe r (s.pktBytes n) goal) goal, BitVec.ofNat _ goal, flags ||| flagPadded⟩
  else .ok ⟨s, s.col.pktLen, flags⟩

/-- `BRC.CONFORM` (R192). -/
def execBrcConform (s : State) : Host.Outcome State Fault Refusal := runCommand .brcConform s (brcConform s)

/-- The body of `PKT.PAD` (R196). -/
def pktPad (s : State) : CmdResult := do
  let n := s.col.pktLen.toNat
  let t := s.io.arg0.toNat
  raiseIf (t > pktCap) (.badOperand 0)
  raiseIf (n = 0) (.badOperand 1)
  if n ≥ t then .ok ⟨s, s.col.pktLen, 0⟩
  else do
    raiseIf (t > s.col.outCap.toNat) (.bufferTooSmall s.io.arg0)
    match parsePacket (s.pktBytes n) with
    | none => .ok ⟨s, s.col.pktLen, flagNotExact⟩
    | some r => .ok ⟨s.storePacket (reframe r (s.pktBytes n) t) t, s.io.arg0, flagPadded⟩

/-- `PKT.PAD` (R196). -/
def execPktPad (s : State) : Host.Outcome State Fault Refusal := runCommand .pktPad s (pktPad s)

end Sys2Proof.Machine
end

