-- ==== Sys2Proof/Machine/Vad.lean ====
section
/-! DEFINITION. The multi-band VAD engine (41_vad.md R130 to R144), over any numeric configuration `P` (R120). Inside a
frame every quantity is an exact integer; `wrap32` stands where the rule writes it, and a register takes its word through
`toWord`. -/

namespace Sys2Proof.Machine

open Sys2Proof.Config

/-- R132: a Q23 sample rounded to Q15 and saturated. -/
def toQ15 (v : Int) : Int := sat16 (asr (v + 128) 8)

/-- The outputs and the new state of one splitter (R134). -/
structure SplitOut where
  lo : List Int
  hi : List Int
  s0 : Int
  s1 : Int
deriving DecidableEq, Repr

/-- One half-band all-pass splitter (R134), over the whole input, two samples at a time. -/
def split (P : NumCfg) : List Int → Int → Int → SplitOut
  | even :: odd :: rest, s0, s1 =>
    let in0 := shl even 10
    let y0 := wrap32 (in0 - s0)
    let x0 := wrap32 (y0 + P.mulQ16 y0 P.aFb21)
    let o1 := wrap32 (s0 + x0)
    let in1 := shl odd 10
    let y1 := wrap32 (in1 - s1)
    let x1 := P.mulQ16 y1 P.aFb20
    let o2 := wrap32 (s1 + x1)
    let r := split P rest (wrap32 (in0 + x0)) (wrap32 (in1 + x1))
    { lo := sat16 (rshiftRound (wrap32 (o2 + o1)) 11) :: r.lo
      hi := sat16 (rshiftRound (wrap32 (o2 - o1)) 11) :: r.hi
      s0 := r.s0
      s1 := r.s1 }
  | _, s0, s1 => ⟨[], [], s0, s1⟩

/-- A splitter with its state held in registers. -/
def splitReg (P : NumCfg) (xs : List Int) (a : AllPass) : SplitOut := split P xs a.s0.toInt a.s1.toInt

/-- The all-pass registers after a split. -/
def SplitOut.regs (o : SplitOut) : AllPass := ⟨toWord o.s0, toWord o.s1⟩

/-- `y[i] = h[i] - h[i-1]`, where `h[-1]` is the carried sample (R135). -/
def diffs (before : Int) : List Int → List Int
  | [] => []
  | h :: rest => (h - before) :: diffs h rest

/-- The halved samples of band 0 (R135). -/
def halved (l1 : List Int) : List Int := l1.map (fun v => asr v 1)

/-- The four bands of a frame and the filter state after it (R133, R135). -/
structure Bands where
  band : Quad (List Int)
  ana0 : AllPass
  ana1 : AllPass
  ana2 : AllPass
  hpState : BitVec 16

/-- R133 to R135: three splits in order, then the differentiator on the lowest band. -/
def splitBands (P : NumCfg) (v : VadRegs) (xs : List Int) : Bands :=
  let o4 := splitReg P xs v.ana0
  let o2 := splitReg P o4.lo v.ana1
  let o1 := splitReg P o2.lo v.ana2
  let h := halved o1.lo
  { band := ⟨diffs v.hpState.toInt h, o1.hi, o2.hi, o4.hi⟩
    ana0 := o4.regs
    ana1 := o2.regs
    ana2 := o1.regs
    hpState := BitVec.ofInt 16 (h.getLastD v.hpState.toInt) }

/-- `ss` of sub-frame `k` of a band (R136). -/
def subEnergy (P : NumCfg) (band : List Int) (k : Nat) : Int :=
  let sl := band.length / P.vadSubframes
  (((band.drop (k * sl)).take sl).map (fun x => asr x 3 * asr x 3)).sum

/-- The energy of the last sub-frame, the look-ahead, which the next frame carries in (R136). -/
def lookAhead (P : NumCfg) (band : List Int) : Int := subEnergy P band (P.vadSubframes - 1)

/-- The energy of a band, with the carry of the previous frame and the look-ahead sub-frame at half weight (R136). -/
def bandEnergy (P : NumCfg) (carry : Int) (band : List Int) : Int :=
  addPosSat32
    ((List.range (P.vadSubframes - 1)).foldl (fun acc k => addPosSat32 acc (subEnergy P band k)) carry)
    (asr (lookAhead P band) 1)

/-- `minCoef` for the counter before the frame (R137). -/
def minCoef (P : NumCfg) (counter : Int) : Int :=
  if counter < P.counterLimit then div32 32767 (asr counter 4 + 1) else 0

/-- The counter after the frame (R137). -/
def nextCounter (P : NumCfg) (counter : Int) : Int := if counter < P.counterLimit then counter + 1 else counter

/-- The noise energy of a band with its bias (R137). -/
def noiseEnergy (xnrg bias : Int) : Int := addPosSat32 xnrg bias

/-- The adaptation coefficient of a band (R137): the three-way choice, raised to `minCoef`. -/
def noiseCoef (P : NumCfg) (mc nl nrg : Int) : Int :=
  let c :=
    if nrg > shl nl 3 then asr P.noiseSmoothCoefQ16 3
    else if nrg < nl then P.noiseSmoothCoefQ16
    else P.mulQ16 (P.mulQ16 (div32 int32Max nrg) nl) (2 * P.noiseSmoothCoefQ16)
  max c mc

/-- `VAD_INV_NL[k]` after the update (R137). -/
def nextInvNl (P : NumCfg) (mc nl invNl bias xnrg : Int) : Int :=
  let nrg := noiseEnergy xnrg bias
  wrap32 (invNl + P.mulQ16 (wrap32 (div32 int32Max nrg - invNl)) (noiseCoef P mc nl nrg))

/-- `VAD_NL[k]` from the updated inverse (R137). -/
def nlOfInv (P : NumCfg) (invNl : Int) : Int := min (div32 int32Max invNl) P.nlMax

/-- `sp`, the energy of a band above its updated noise level (R138). -/
def signalPower (xnrg nl : Int) : Int := xnrg - nl

/-- The energy-to-noise ratio of a band in Q8 (R138); 256 for a band at or below its noise level. -/
def energyRatio (xnrg nl : Int) : Int :=
  if signalPower xnrg nl > 0 then
    if xnrg < 2 ^ 23 then div32 (shl xnrg 8) (nl + 1) else div32 xnrg (asr nl 8 + 1)
  else 256

/-- `snr` of a band (R138). -/
def bandSnr (P : NumCfg) (xnrg nl : Int) : Int := log2Approx128 P (energyRatio xnrg nl) - 1024

/-- The tilt sum after a band (R139); a band with `sp <= 0` contributes nothing. -/
def addTilt (P : NumCfg) (tilt weight xnrg nl : Int) : Int :=
  let sp := signalPower xnrg nl
  if sp > 0 then
    let snr := bandSnr P xnrg nl
    let s := if sp < P.tiltSmallNrg then P.mulQ16 (shl (isqrtApprox P sp) 6) snr else snr
    wrap32 (tilt + P.mulQ16 weight s)
  else tilt

/-- The tilt sum over the four bands, in increasing band order (R139). -/
def tiltSum (P : NumCfg) (x nl : Quad Int) : Int :=
  addTilt P (addTilt P (addTilt P (addTilt P 0 P.tiltW.b0 x.b0 nl.b0) P.tiltW.b1 x.b1 nl.b1) P.tiltW.b2 x.b2 nl.b2)
    P.tiltW.b3 x.b3 nl.b3

/-- `VAD_TILT_Q15` (R139). -/
def tiltQ15 (P : NumCfg) (x nl : Quad Int) : Int := shl (sigmoid15 P (tiltSum P x nl) - 16384) 1

/-- The squared SNR a band contributes (R140). -/
def snrSq (P : NumCfg) (xnrg nl : Int) : Int :=
  if signalPower xnrg nl > 0 then bandSnr P xnrg nl * bandSnr P xnrg nl else 0

/-- The raw activity probability (R140). -/
def rawActivity (P : NumCfg) (x nl : Quad Int) : Int :=
  let sumSq := snrSq P x.b0 nl.b0 + snrSq P x.b1 nl.b1 + snrSq P x.b2 nl.b2 + snrSq P x.b3 nl.b3
  let pSnr := 3 * isqrtApprox P (div32 sumSq P.vadNBands)
  sigmoid15 P (P.mulQ16 P.snrFactorQ16 pSnr - P.negOffsetQ5)

/-- The weighted speech energy (R141), wrapped after each band. -/
def speechEnergy (x nl : Quad Int) : Int :=
  wrap32 (wrap32 (wrap32 (wrap32 (0 + 1 * asr (x.b0 - nl.b0) 4) + 2 * asr (x.b1 - nl.b1) 4) + 3 * asr (x.b2 - nl.b2) 4)
    + 4 * asr (x.b3 - nl.b3) 4)

/-- Power scaling of the activity (R141): `n` samples at `fs` kHz. -/
def scaledActivity (P : NumCfg) (n fs : Nat) (e0 sa : Int) : Int :=
  let e := if n = 20 * fs then asr e0 1 else e0
  if e ≤ 0 then asr sa 1
  else if e < P.speechNrgSmall then P.mulQ16 (32768 + isqrtApprox P (shl e 16)) sa
  else sa

/-- The smoothing coefficient (R143). -/
def smoothCoef (P : NumCfg) (n fs : Nat) (sa : Int) : Int :=
  let sc := P.mulQ16 P.snrSmoothCoefQ18 (P.mulQ16 sa sa)
  if n = 10 * fs then asr sc 1 else sc

/-- The smoothed ratio of a band (R143). -/
def nextRatio (P : NumCfg) (sc smth ratio : Int) : Int := wrap32 (smth + P.mulQ16 (ratio - smth) sc)

/-- The quality of a band (R143). -/
def bandQuality (P : NumCfg) (smth : Int) : Int :=
  sigmoid15 P (asr (3 * (log2Approx128 P smth - 1024) - 2048) 4)

/-- `VAD_SA_Q8` (R142). -/
def activityQ8 (sa : Int) : Int := min (asr sa 7) 255

/-- The admitted-frame part of `VAD.EVAL` (R132 to R143): the VAD record after the Q23 samples `xs` at `fs` kHz. Each
rule reads what the earlier ones wrote (R144). -/
def vadFrame (P : NumCfg) (v : VadRegs) (fs : Nat) (xs : List Int) : VadRegs :=
  let n := xs.length
  let sb := splitBands P v (xs.map toQ15)
  let x : Quad Int :=
    ⟨bandEnergy P v.xnrgSubfr.b0.toInt sb.band.b0, bandEnergy P v.xnrgSubfr.b1.toInt sb.band.b1,
     bandEnergy P v.xnrgSubfr.b2.toInt sb.band.b2, bandEnergy P v.xnrgSubfr.b3.toInt sb.band.b3⟩
  let mc := minCoef P v.counter.toInt
  let inv : Quad Int :=
    ⟨nextInvNl P mc v.nl.b0.toInt v.invNl.b0.toInt v.noiseBias.b0.toInt x.b0,
     nextInvNl P mc v.nl.b1.toInt v.invNl.b1.toInt v.noiseBias.b1.toInt x.b1,
     nextInvNl P mc v.nl.b2.toInt v.invNl.b2.toInt v.noiseBias.b2.toInt x.b2,
     nextInvNl P mc v.nl.b3.toInt v.invNl.b3.toInt v.noiseBias.b3.toInt x.b3⟩
  let nl := inv.map (nlOfInv P)
  let sa := scaledActivity P n fs (speechEnergy x nl) (rawActivity P x nl)
  let sc := smoothCoef P n fs sa
  let smth : Quad Int :=
    ⟨nextRatio P sc v.nrgRatioSmthQ8.b0.toInt (energyRatio x.b0 nl.b0),
     nextRatio P sc v.nrgRatioSmthQ8.b1.toInt (energyRatio x.b1 nl.b1),
     nextRatio P sc v.nrgRatioSmthQ8.b2.toInt (energyRatio x.b2 nl.b2),
     nextRatio P sc v.nrgRatioSmthQ8.b3.toInt (energyRatio x.b3 nl.b3)⟩
  { ana0 := sb.ana0
    ana1 := sb.ana1
    ana2 := sb.ana2
    hpState := sb.hpState
    counter := toWord (nextCounter P v.counter.toInt)
    nl := nl.map toWord
    invNl := inv.map toWord
    nrgRatioSmthQ8 := smth.map toWord
    noiseBias := v.noiseBias
    xnrgSubfr := sb.band.map (fun band => toWord (lookAhead P band))
    qualityQ15 := smth.map (fun r => toWord (bandQuality P r))
    saQ8 := toWord (activityQ8 sa)
    tiltQ15 := toWord (tiltQ15 P x nl)
    active := decide (activityQ8 sa ≥ P.vadActiveThresQ8) }

/-- `RES0` of `VAD.EVAL` for an admitted frame: `VAD_SA_Q8 + 256 * VAD_ACTIVE` (R142). -/
def evalRes0 (v : VadRegs) : Word := v.saQ8 + flagBit v.active 8

/-- The body of `VAD.EVAL` with its admission steps (R130, R131) over a numeric configuration. -/
def vadEval (P : NumCfg) (s : State) : CmdResult :=
  let n := s.io.arg0.toNat
  let fs := s.io.arg1.toNat
  if n = 0 then .ok ⟨s, 0, 0⟩
  else do
    raiseIf (fs ∉ legalRatesKHz) (.badOperand 1)
    raiseIf (frameLenBad P n) (.badOperand 0)
    if s.col.smpCount.toNat < n then .ok ⟨s, 0, 0⟩
    else
      let v := vadFrame P s.vad fs (s.smpValues n)
      .ok ⟨{ s with vad := v }, evalRes0 v, v.tiltQ15⟩

/-- `VAD.EVAL` (R130). -/
def execVadEval (s : State) : Host.Outcome State Fault Refusal := runCommand .vadEval s (vadEval specNum s)

end Sys2Proof.Machine
end

