-- ==== Sys2Proof/Machine/Dtx.lean ====
section
/-! DEFINITION. The DTX decision state machine (42_dtx.md R160 to R172). Durations, energies and the peak are natural
numbers while they are computed (all products exact, R165 to R167) and words in the registers. -/

namespace Sys2Proof.Machine

open Sys2Proof.Config

/-- `d`, the frame duration in Q1 milliseconds (R162). -/
def frameDurQ1 (n fs : Nat) : Nat := 2 * n / fs

/-- Digital silence at bit depth `depth` (R164). -/
def isSilence (depth : Nat) (xs : List Int) : Bool := xs.all (fun v => decide (2 * v.natAbs < 2 ^ (24 - depth)))

/-- `E`, the mean square of the frame (R165). -/
def frameEnergy (xs : List Int) : Nat := (xs.map (fun v => v.natAbs * v.natAbs)).sum / xs.length

/-- The peak tracker before the classification (R166). -/
def trackPeak (P : NumCfg) (silence anaValid : Bool) (prob peak e : Nat) : Nat :=
  if ¬ silence ∧ ¬ (anaValid ∧ prob < P.probCutQ15) then max (peak * P.peakDecayQ15 / 2 ^ 15) e else peak

/-- The activity classification (R167): (a) silence, (b) a valid analysis with its override, (c) the boosted
comparison alone. `peak` is the value after `trackPeak`. -/
def classify (P : NumCfg) (silence anaValid : Bool) (prob peak e : Nat) : Bool :=
  if silence then false
  else if anaValid then
    if prob ≥ P.probCutQ15 then true else decide (peak * 256 < P.psnrKQ8 * e)
  else decide (peak * P.peakBoostQ8 < P.psnrKQ8 * e)

/-- What the state machine decides (R168): the suppress output, the new duration and the new peak. -/
structure Decision where
  suppress : Bool
  dur : Nat
  peak : Nat
deriving DecidableEq, Repr

/-- The state machine with DTX enabled (R168). -/
def decideDtx (P : NumCfg) (active was : Bool) (dur peak d : Nat) : Decision :=
  if active then ⟨false, 0, if was then 0 else peak⟩
  else if dur + d ≤ P.dtxTQ1 then ⟨false, dur + d, peak⟩
  else if dur + d ≤ P.dtxTmaxQ1 then ⟨true, dur + d, peak⟩
  else ⟨false, P.dtxTQ1, peak⟩

/-- The state machine with DTX disabled (R171). -/
def decideOff (peak : Nat) : Decision := ⟨false, 0, peak⟩

/-- The comfort-noise scheduler (R169, and R171 through `suppress = false`): `emitCN` and the new elapsed time. -/
def scheduleCn (suppress : Bool) (elapsed d interval : Nat) : Bool × Nat :=
  if suppress then (if elapsed + d ≥ interval then (true, 0) else (false, elapsed + d)) else (false, 0)

/-- The VAD and DTX records and the results after an admitted frame of Q23 samples `xs` at `fs` kHz (R162 to R171). The
VAD runs first and does not enter the classification (R163). -/
def decideFrame (P : NumCfg) (s : State) (fs : Nat) (xs : List Int) : Done :=
  let d := frameDurQ1 xs.length fs
  let v := vadFrame P s.vad fs xs
  let silence := isSilence s.cfg.lsbDepth.toNat xs
  let e := frameEnergy xs
  let peak := trackPeak P silence s.col.anaValid s.col.anaProbQ15.toNat s.dtx.peak.toNat e
  let active := classify P silence s.col.anaValid s.col.anaProbQ15.toNat peak e
  let dec :=
    if s.cfg.flags.dtxEn then decideDtx P active s.dtx.stat.inDtx s.dtx.durQ1.toNat peak d else decideOff peak
  let cn := scheduleCn dec.suppress s.dtx.cnElapsedQ1.toNat d s.cfg.cnIntervalQ1.toNat
  { state :=
      { s with
        vad := v
        dtx :=
          { durQ1 := BitVec.ofNat _ dec.dur
            stat :=
              { inDtx := dec.suppress
                lastSuppress := dec.suppress
                lastEmitCn := cn.1
                lastActive := active
                lastSilence := silence
                decisionValid := true }
            peak := BitVec.ofNat 64 dec.peak
            frameDurQ1 := BitVec.ofNat _ d
            cnElapsedQ1 := BitVec.ofNat _ cn.2
            energy := BitVec.ofNat 64 e } }
    res0 := decideRes0 dec.suppress cn.1 active silence v.active
    res1 := v.saQ8 }

/-- The body of `DTX.DECIDE` with its admission (R160, R161) over a numeric configuration. -/
def dtxDecide (P : NumCfg) (s : State) : CmdResult := do
  let n := s.io.arg0.toNat
  let fs := s.io.arg1.toNat
  raiseIf (fs ∉ legalRatesKHz) (.badOperand 1)
  raiseIf (n = 0 ∨ frameLenBad P n) (.badOperand 0)
  raiseIf (s.col.smpCount.toNat < n) (.badOperand 2)
  .ok (decideFrame P s fs (s.smpValues n))

/-- `DTX.DECIDE` (R160). -/
def execDtxDecide (s : State) : Host.Outcome State Fault Refusal := runCommand .dtxDecide s (dtxDecide specNum s)

end Sys2Proof.Machine
end

