-- ==== Sys2Proof/Machine/Fec.lean ====
section
/-! DEFINITION. The FEC/LBRR redundancy scheduler (43_fec.md R180 to R185). -/

namespace Sys2Proof.Machine

open Sys2Proof.Config

/-- `shouldEncodeRedundancy()` (R181). -/
def redundancyWanted (s : State) : Bool :=
  s.cfg.flags.fecEn && s.fec.havePrev && decide (s.cfg.lossPct.toNat ≥ lossMinPct)

/-- `FEC.QUERY` (R181). -/
def execFecQuery (s : State) : Host.Outcome State Fault Refusal :=
  runCommand .fecQuery s (.ok ⟨s, flagBit (redundancyWanted s) 0, flagBit s.fec.prevActive 0⟩)

/-- The FEC record after `recordFrame(samples, wasActive)` of `len` samples (R182). -/
def recordedFec (s : State) (len : Word) (wasActive : Bool) : FecRegs :=
  { havePrev := s.cfg.flags.fecEn
    prevActive := wasActive
    prevLen := if s.cfg.flags.fecEn then len else 0
    frameCount := s.fec.frameCount + 1 }

/-- The effect of `FEC.RECORD` once its checks pass (R182): `FECBUF` takes the frame only with FEC enabled. -/
def recordFrame (s : State) (len : Word) (wasActive : Bool) : State :=
  let s1 := if s.cfg.flags.fecEn then s.retainFrame len.toNat else s
  { s1 with
    fec := recordedFec s len wasActive
    dtx := { s.dtx with stat := { s.dtx.stat with decisionValid := false } } }

/-- The body of `FEC.RECORD` (R182). -/
def fecRecord (wasActive : Bool) (s : State) : CmdResult := do
  let len := s.io.arg0
  raiseIf (len.toNat = 0 ∨ len.toNat > smpCap ∨ len.toNat > s.col.smpCount.toNat) (.badOperand 0)
  raiseIf (¬ s.dtx.stat.decisionValid ∨ s.dtx.stat.lastSuppress) (.sequenceError s.dtx.stat.word)
  let t := recordFrame s len wasActive
  .ok ⟨t, t.fec.statWord, t.fec.frameCount⟩

/-- `FEC.RECORD` (R182). -/
def execFecRecord (wasActive : Bool) (s : State) : Host.Outcome State Fault Refusal :=
  runCommand (.fecRecord wasActive) s (fecRecord wasActive s)

/-- `redundancyBitrate(primaryBitrate)` (R183). -/
def redundancyRate (p : Nat) : Nat := max (specParams.lbrrNum * p / specParams.lbrrDen) lbrrFloor

/-- `FEC.RATE` (R183). -/
def execFecRate (s : State) : Host.Outcome State Fault Refusal :=
  runCommand .fecRate s (.ok ⟨s, BitVec.ofNat _ (redundancyRate s.io.arg0.toNat), 0⟩)

end Sys2Proof.Machine
end

