-- ==== Sys2Proof/Machine/Framer.lean ====
section
/-! DEFINITION. The packet framer (45_framer.md R210 to R217). -/

namespace Sys2Proof.Machine

open Sys2Proof.Config

/-- `validSize(mode, fsz)` (R211). -/
def validSizes : Mode → List Nat
  | .speech => [480, 960, 1920, 2880]
  | .transform => [120, 240, 480, 960]
  | .hybrid => [480, 960, 1920, 2880]
  | .auto => [120, 240, 480, 960, 1920, 2880]

/-- `expand(mode, fsz)` (R212): the number of units and the unit size. -/
def expand (mode : Mode) (fsz : Nat) : Nat × Nat :=
  if mode = .hybrid ∨ mode = .auto then
    if fsz = 1920 then (2, 960) else if fsz = 2880 then (3, 960) else (1, fsz)
  else (1, fsz)

/-- `unitSet(coder)` in index order (R214). -/
def unitSet : Coder → List Nat
  | .speech => [480, 960, 1920, 2880]
  | .hybrid => [480, 960]
  | .transform => [120, 240, 480, 960]

/-- `bwSet(coder)` in rank order (R214). -/
def bwSet : Coder → List Bandwidth
  | .speech => [.narrow, .medium, .wide]
  | .hybrid => [.superWide, .full]
  | .transform => [.narrow, .wide, .superWide, .full]

/-- `cfgIndex(coder, bw, unit)` (R214): the group's first index, then bandwidth rank, then unit index. -/
def cfgIndex (coder : Coder) (bw : Bandwidth) (unit : Nat) : Nat :=
  let r := (bwSet coder).idxOf bw
  let u := (unitSet coder).idxOf unit
  match coder with
  | .speech => 4 * r + u
  | .hybrid => 12 + 2 * r + u
  | .transform => 16 + 4 * r + u

/-- The stereo bit of the TOC byte (R25, R87). -/
def stereoBit (s : State) : Nat := if s.cfg.channels = 2 then 1 else 0

/-- The TOC base `config << 3 | stereo << 2` (R87, R210, R215). -/
def tocBase (s : State) (cfg : Nat) : Nat := cfg * 8 + stereoBit s * 4

/-- An operand's value, or an error when it has none. -/
def orRaise {α : Type} (v : Option α) (e : CmdError) : Except CmdError α :=
  match v with
  | some a => .ok a
  | none => .error e

/-- The effective coder and bandwidth of `PKT.CHECK` (R210, R213): LFE forces transform and narrow; Auto takes the
operand; otherwise the configured mode. None when an operand that is read is out of range. -/
def effectiveCoder (s : State) : Option Coder :=
  if s.cfg.flags.lfe then some .transform
  else
    match s.cfg.mode with
    | .auto => Coder.ofWord? s.io.arg0
    | .speech => some .speech
    | .transform => some .transform
    | .hybrid => some .hybrid

/-- The effective bandwidth of `PKT.CHECK` (R210, R213); none when the operand that is read is above 4. -/
def effectiveBandwidth (s : State) : Option Bandwidth :=
  if s.cfg.flags.lfe then some .narrow else Bandwidth.ofWord? s.io.arg1

/-- The body of `PKT.CHECK` (R210). -/
def pktCheck (s : State) : CmdResult := do
  let fsz := s.cfg.frameSize.toNat
  let bw ← orRaise (effectiveBandwidth s) (.badOperand 1)
  let coder ← orRaise (effectiveCoder s) (.badOperand 0)
  raiseIf (fsz ∉ validSizes s.cfg.mode) (.invalidFrameSize s.cfg.frameSize)
  let plan := expand s.cfg.mode fsz
  raiseIf (plan.2 ∉ unitSet coder) (.invalidFrameSize s.cfg.frameSize)
  raiseIf (bw ∉ bwSet coder) (.badOperand 2)
  .ok ⟨s, BitVec.ofNat _ (tocBase s (cfgIndex coder bw plan.2) + 256 * plan.1),
    BitVec.ofNat _ (plan.2 + 65536 * coder.code.toNat + 2 ^ 20 * bw.code.toNat)⟩

/-- `PKT.CHECK` (R210). -/
def execPktCheck (s : State) : Host.Outcome State Fault Refusal := runCommand .pktCheck s (pktCheck s)

/-- The body of `PKT.TOC` (R215). -/
def pktToc (s : State) : CmdResult := do
  let coder ← orRaise (Coder.ofWord? s.io.arg0) (.badOperand 0)
  let bw ← orRaise (Bandwidth.ofWord? s.io.arg1) (.badOperand 1)
  raiseIf (s.io.arg2.toNat ∉ unitSet coder) (.invalidFrameSize s.io.arg2)
  raiseIf (bw ∉ bwSet coder) (.badOperand 2)
  let cfg := cfgIndex coder bw s.io.arg2.toNat
  .ok ⟨s, BitVec.ofNat _ (tocBase s cfg), BitVec.ofNat _ cfg⟩

/-- `PKT.TOC` (R215). -/
def execPktToc (s : State) : Host.Outcome State Fault Refusal := runCommand .pktToc s (pktToc s)

/-- The payload lengths of the first `m` units, one staging slot each (R38, R216). -/
def unitLens (s : State) (m : Nat) : List Nat :=
  [s.col.frmLen0.toNat, s.col.frmLen1.toNat, s.col.frmLen2.toNat].take m

/-- The payloads of the units whose lengths are given, from slot `j` on (R216). -/
def unitPayloads (s : State) : (j : Nat) → List Nat → List (List Byte)
  | _, [] => []
  | j, len :: lens => s.frmBytes j len :: unitPayloads s (j + 1) lens

/-- The first unit longer than 1275 bytes raises `BadOperand(2 + j)` (R216). -/
def checkUnits : (j : Nat) → List Nat → Except CmdError Unit
  | _, [] => .ok ()
  | j, len :: lens =>
    if len > maxFrameBytes then .error (.badOperand (BitVec.ofNat _ (2 + j))) else checkUnits (j + 1) lens

/-- The packet `PKT.BUILD` writes (R216). -/
def builtPacket (base : Byte) (units : List (List Byte)) : List Byte :=
  match units with
  | [payload] => buildSingle base payload
  | _ => buildMulti base units

/-- The body of `PKT.BUILD` (R216). -/
def pktBuild (s : State) : CmdResult := do
  let m := s.io.arg1.toNat
  raiseIf (s.col.subencStatus ≠ 0) (.subEncoderFailure s.col.subencStatus)
  raiseIf (tocBaseBad s.io.arg0) (.badOperand 0)
  raiseIf (m < 1 ∨ m > frmSlots) (.badOperand 1)
  let lens := unitLens s m
  checkUnits 0 lens
  raiseIf (buildSize lens > s.col.outCap.toNat) (.bufferTooSmall (BitVec.ofNat _ (buildSize lens)))
  let q := builtPacket (s.io.arg0.extractLsb' 0 8) (unitPayloads s 0 lens)
  .ok ⟨s.storePacket q (buildSize lens), BitVec.ofNat _ (buildSize lens), if m = 1 then 0 else 3⟩

/-- `PKT.BUILD` (R216). -/
def execPktBuild (s : State) : Host.Outcome State Fault Refusal := runCommand .pktBuild s (pktBuild s)

/-- The body of `PKT.CN` (R217): the TOC byte alone. -/
def pktCn (s : State) : CmdResult := do
  raiseIf (tocBaseBad s.io.arg0) (.badOperand 0)
  raiseIf (s.col.outCap.toNat < 1) (.bufferTooSmall 1)
  .ok ⟨s.storePacket [s.io.arg0.extractLsb' 0 8] 1, 1, 0⟩

/-- `PKT.CN` (R217). -/
def execPktCn (s : State) : Host.Outcome State Fault Refusal := runCommand .pktCn s (pktCn s)

end Sys2Proof.Machine
end

