-- ==== Sys2Proof/Machine/System.lean ====
section
/-! DEFINITION. The system commands of 46_system.md and `VAD.INIT` of 41_vad.md. -/

namespace Sys2Proof.Machine

open Sys2Proof.Config

/-- `NOP` (R230): the completion registers and nothing else. -/
def execNop (s : State) : Host.Outcome State Fault Refusal :=
  runCommand .nop s (.ok ⟨s, 0, 0⟩)

/-- `RESET` (R231, R184, R172): the DTX and FEC records to 0, nothing else. -/
def execReset (s : State) : Host.Outcome State Fault Refusal :=
  runCommand .reset s (.ok ⟨{ s with dtx := resetDtx, fec := resetFec }, 0, 0⟩)

/-- The body of `VAD.INIT` (R146) over a numeric configuration: the VAD record alone (R282). -/
def vadInitBody (P : NumCfg) (s : State) : CmdResult := .ok ⟨{ s with vad := vadInit P }, 0, 0⟩

/-- `VAD.INIT` (R146). -/
def execVadInit (s : State) : Host.Outcome State Fault Refusal := runCommand .vadInit s (vadInitBody specNum s)

end Sys2Proof.Machine
end

