-- ==== Sys2Proof/Machine/Dispatch.lean ====
section
/-! DEFINITION. One arm per command: the whole effect of a legal write of `CMD`, completion included (R80, R256). -/

namespace Sys2Proof.Machine

def exec (i : Instr) (s : State) : Host.Outcome State Fault Refusal :=
  match i with
  | .nop => Sys2Proof.Machine.execNop s
  | .reset => Sys2Proof.Machine.execReset s
  | .vadInit => Sys2Proof.Machine.execVadInit s
  | .vadEval => Sys2Proof.Machine.execVadEval s
  | .dtxDecide => Sys2Proof.Machine.execDtxDecide s
  | .fecQuery => Sys2Proof.Machine.execFecQuery s
  | .fecRecord wasActive => Sys2Proof.Machine.execFecRecord wasActive s
  | .fecRate => Sys2Proof.Machine.execFecRate s
  | .brcTarget => Sys2Proof.Machine.execBrcTarget s
  | .brcConform => Sys2Proof.Machine.execBrcConform s
  | .pktPad => Sys2Proof.Machine.execPktPad s
  | .pktCheck => Sys2Proof.Machine.execPktCheck s
  | .pktToc => Sys2Proof.Machine.execPktToc s
  | .pktBuild => Sys2Proof.Machine.execPktBuild s
  | .pktCn => Sys2Proof.Machine.execPktCn s

end Sys2Proof.Machine
end

