-- ==== Sys2Proof/Machine/HostPort.lean ====
section
/-! DEFINITION. The slave port: the register map of 10_state.md, the address map of 20_memory.md R61, host reads and
writes (R62 to R65, R71, R74), hardware reset (70_reset_and_hazards.md R280), and what the next host access asks for. -/

namespace Sys2Proof.Machine

open Sys2Proof.Config

/-- Every register the host can address (R61). -/
inductive Reg where
  | cfgFsHz | cfgChannels | cfgMode | cfgBandwidth | cfgFrameSize | cfgBitrate | cfgRateMode | cfgComplexity | cfgFlags
  | cfgLossPct | cfgLsbDepth | cfgCnIntervalQ1
  | cmd | arg0 | arg1 | arg2 | status | res0 | res1 | errInfo | cmdSeq | irqEn | irqPend
  | anaValid | anaProbQ15 | subencStatus | outCap | pktLen | smpCount | frmLen0 | frmLen1 | frmLen2
  | vadAna0 (k : Fin 2) | vadAna1 (k : Fin 2) | vadAna2 (k : Fin 2) | vadHpState | vadCounter
  | vadNl (b : Fin 4) | vadInvNl (b : Fin 4) | vadNrgRatioSmthQ8 (b : Fin 4) | vadNoiseBias (b : Fin 4)
  | vadXnrgSubfr (b : Fin 4) | vadQualityQ15 (b : Fin 4) | vadSaQ8 | vadTiltQ15 | vadActive
  | dtxDurQ1 | dtxStat | dtxPeakLo | dtxPeakHi | dtxFrameDurQ1 | dtxCnElapsedQ1 | dtxEnergyLo | dtxEnergyHi
  | fecStat | fecPrevLen | fecFrameCount
deriving DecidableEq, Repr

/-- The byte address of a register (R24 to R41). -/
def Reg.addr : Reg → Nat
  | .cfgFsHz => 0x000
  | .cfgChannels => 0x004
  | .cfgMode => 0x008
  | .cfgBandwidth => 0x00C
  | .cfgFrameSize => 0x010
  | .cfgBitrate => 0x014
  | .cfgRateMode => 0x018
  | .cfgComplexity => 0x01C
  | .cfgFlags => 0x020
  | .cfgLossPct => 0x024
  | .cfgLsbDepth => 0x028
  | .cfgCnIntervalQ1 => 0x02C
  | .cmd => 0x040
  | .arg0 => 0x044
  | .arg1 => 0x048
  | .arg2 => 0x04C
  | .status => 0x050
  | .res0 => 0x054
  | .res1 => 0x058
  | .errInfo => 0x05C
  | .cmdSeq => 0x060
  | .irqEn => 0x064
  | .irqPend => 0x068
  | .anaValid => 0x080
  | .anaProbQ15 => 0x084
  | .subencStatus => 0x088
  | .outCap => 0x08C
  | .pktLen => 0x090
  | .smpCount => 0x094
  | .frmLen0 => 0x0A0
  | .frmLen1 => 0x0A4
  | .frmLen2 => 0x0A8
  | .vadAna0 k => 0x100 + 4 * k.val
  | .vadAna1 k => 0x108 + 4 * k.val
  | .vadAna2 k => 0x110 + 4 * k.val
  | .vadHpState => 0x118
  | .vadCounter => 0x11C
  | .vadNl b => 0x120 + 4 * b.val
  | .vadInvNl b => 0x130 + 4 * b.val
  | .vadNrgRatioSmthQ8 b => 0x140 + 4 * b.val
  | .vadNoiseBias b => 0x150 + 4 * b.val
  | .vadXnrgSubfr b => 0x160 + 4 * b.val
  | .vadQualityQ15 b => 0x170 + 4 * b.val
  | .vadSaQ8 => 0x180
  | .vadTiltQ15 => 0x184
  | .vadActive => 0x188
  | .dtxDurQ1 => 0x1A0
  | .dtxStat => 0x1A4
  | .dtxPeakLo => 0x1A8
  | .dtxPeakHi => 0x1AC
  | .dtxFrameDurQ1 => 0x1B0
  | .dtxCnElapsedQ1 => 0x1B4
  | .dtxEnergyLo => 0x1B8
  | .dtxEnergyHi => 0x1BC
  | .fecStat => 0x1C0
  | .fecPrevLen => 0x1C4
  | .fecFrameCount => 0x1C8

/-- The registers of a four-element array. -/
def arrayRegs (f : Fin 4 → Reg) : List Reg := [f 0, f 1, f 2, f 3]

/-- The configuration registers (R61, 0x000). -/
def configRegs : List Reg :=
  [.cfgFsHz, .cfgChannels, .cfgMode, .cfgBandwidth, .cfgFrameSize, .cfgBitrate, .cfgRateMode, .cfgComplexity, .cfgFlags,
    .cfgLossPct, .cfgLsbDepth, .cfgCnIntervalQ1]

/-- The command block and interrupt registers (R61, 0x040). -/
def commandRegs : List Reg :=
  [.cmd, .arg0, .arg1, .arg2, .status, .res0, .res1, .errInfo, .cmdSeq, .irqEn, .irqPend]

/-- The collaborator and buffer-management registers (R61, 0x080 and 0x0A0). -/
def collabRegs : List Reg :=
  [.anaValid, .anaProbQ15, .subencStatus, .outCap, .pktLen, .smpCount, .frmLen0, .frmLen1, .frmLen2]

/-- The VAD views (R61, 0x100). -/
def vadViews : List Reg :=
  [[.vadAna0 0, .vadAna0 1, .vadAna1 0, .vadAna1 1, .vadAna2 0, .vadAna2 1, .vadHpState, .vadCounter],
    arrayRegs .vadNl, arrayRegs .vadInvNl, arrayRegs .vadNrgRatioSmthQ8, arrayRegs .vadNoiseBias,
    arrayRegs .vadXnrgSubfr, arrayRegs .vadQualityQ15, [.vadSaQ8, .vadTiltQ15, .vadActive]].flatten

/-- The DTX and FEC views (R61, 0x1A0 and 0x1C0). -/
def dtxFecViews : List Reg :=
  [.dtxDurQ1, .dtxStat, .dtxPeakLo, .dtxPeakHi, .dtxFrameDurQ1, .dtxCnElapsedQ1, .dtxEnergyLo, .dtxEnergyHi,
    .fecStat, .fecPrevLen, .fecFrameCount]

/-- The registers of the map, in address order. -/
def Reg.all : List Reg := [configRegs, commandRegs, collabRegs, vadViews, dtxFecViews].flatten

/-- The register at a byte address, if there is one. -/
def regAt (a : Nat) : Option Reg := Reg.all.find? (fun r => decide (r.addr = a))

/-- A register of an all-pass state. -/
def AllPass.get (p : AllPass) : Fin 2 → Word
  | 0 => p.s0
  | 1 => p.s1

/-- What a host read of a register returns (R24 to R41). -/
def Reg.read (s : State) : Reg → Word
  | .cfgFsHz => s.cfg.fsHz
  | .cfgChannels => s.cfg.channels
  | .cfgMode => s.cfg.mode.code
  | .cfgBandwidth => s.cfg.bandwidth.code
  | .cfgFrameSize => s.cfg.frameSize
  | .cfgBitrate => s.cfg.bitrate
  | .cfgRateMode => s.cfg.rateMode.code
  | .cfgComplexity => s.cfg.complexity
  | .cfgFlags => s.cfg.flags.word
  | .cfgLossPct => s.cfg.lossPct
  | .cfgLsbDepth => s.cfg.lsbDepth
  | .cfgCnIntervalQ1 => s.cfg.cnIntervalQ1
  | .cmd => s.io.cmd
  | .arg0 => s.io.arg0
  | .arg1 => s.io.arg1
  | .arg2 => s.io.arg2
  | .status => s.io.status.word
  | .res0 => s.io.res0
  | .res1 => s.io.res1
  | .errInfo => s.io.errInfo
  | .cmdSeq => s.io.cmdSeq
  | .irqEn => flagBit s.io.irqEn 0
  | .irqPend => flagBit s.io.irqPend 0
  | .anaValid => flagBit s.col.anaValid 0
  | .anaProbQ15 => s.col.anaProbQ15
  | .subencStatus => s.col.subencStatus
  | .outCap => s.col.outCap
  | .pktLen => s.col.pktLen
  | .smpCount => s.col.smpCount
  | .frmLen0 => s.col.frmLen0.setWidth _
  | .frmLen1 => s.col.frmLen1.setWidth _
  | .frmLen2 => s.col.frmLen2.setWidth _
  | .vadAna0 k => s.vad.ana0.get k
  | .vadAna1 k => s.vad.ana1.get k
  | .vadAna2 k => s.vad.ana2.get k
  | .vadHpState => s.vad.hpState.signExtend _
  | .vadCounter => s.vad.counter
  | .vadNl b => s.vad.nl.get b
  | .vadInvNl b => s.vad.invNl.get b
  | .vadNrgRatioSmthQ8 b => s.vad.nrgRatioSmthQ8.get b
  | .vadNoiseBias b => s.vad.noiseBias.get b
  | .vadXnrgSubfr b => s.vad.xnrgSubfr.get b
  | .vadQualityQ15 b => s.vad.qualityQ15.get b
  | .vadSaQ8 => s.vad.saQ8
  | .vadTiltQ15 => s.vad.tiltQ15
  | .vadActive => flagBit s.vad.active 0
  | .dtxDurQ1 => s.dtx.durQ1
  | .dtxStat => s.dtx.stat.word
  | .dtxPeakLo => s.dtx.peak.extractLsb' 0 _
  | .dtxPeakHi => s.dtx.peak.extractLsb' 32 _
  | .dtxFrameDurQ1 => s.dtx.frameDurQ1
  | .dtxCnElapsedQ1 => s.dtx.cnElapsedQ1
  | .dtxEnergyLo => s.dtx.energy.extractLsb' 0 _
  | .dtxEnergyHi => s.dtx.energy.extractLsb' 32 _
  | .fecStat => s.fec.statWord
  | .fecPrevLen => s.fec.prevLen
  | .fecFrameCount => s.fec.frameCount

/-- A host write of a configuration register: the setter, which stores the legalised value and never fails (R24 to
R35, R232). -/
def writeConfig (c : ConfigRegs) (w : Word) : Reg → ConfigRegs
  | .cfgFsHz => if w.toNat ∈ legalRatesHz then { c with fsHz := w } else c
  | .cfgChannels => if w = 1 ∨ w = 2 then { c with channels := w } else c
  | .cfgMode => { c with mode := (Mode.ofWord? w).getD c.mode }
  | .cfgBandwidth => { c with bandwidth := (Bandwidth.ofWord? w).getD c.bandwidth }
  | .cfgFrameSize => { c with frameSize := clampUnsigned 65535 w }
  | .cfgBitrate => { c with bitrate := clampSigned specParams.bitrateMin specParams.bitrateMax w }
  | .cfgRateMode => { c with rateMode := (RateMode.ofWord? w).getD c.rateMode }
  | .cfgComplexity => { c with complexity := clampSigned specParams.complexityMin specParams.complexityMax w }
  | .cfgFlags => { c with flags := CfgFlags.ofWord w }
  | .cfgLossPct => { c with lossPct := clampSigned specParams.lossPctMin specParams.lossPctMax w }
  | .cfgLsbDepth => { c with lsbDepth := clampSigned specParams.lsbDepthMin specParams.lsbDepthMax w }
  | .cfgCnIntervalQ1 => { c with cnIntervalQ1 := clampUnsigned 65535 w }
  | _ => c

/-- A host write of an operand or interrupt register (R21, R36, R37); `IRQ_PEND` is write-one-to-clear (R263). -/
def writeCommand (c : CommandRegs) (w : Word) : Reg → CommandRegs
  | .arg0 => { c with arg0 := w }
  | .arg1 => { c with arg1 := w }
  | .arg2 => { c with arg2 := w }
  | .irqEn => { c with irqEn := w.getLsbD 0 }
  | .irqPend => { c with irqPend := c.irqPend && !w.getLsbD 0 }
  | _ => c

/-- A host write of a collaborator or buffer-management register (R38). -/
def writeCollab (c : CollabRegs) (w : Word) : Reg → CollabRegs
  | .anaValid => { c with anaValid := w.getLsbD 0 }
  | .anaProbQ15 => { c with anaProbQ15 := clampUnsigned 32768 w }
  | .subencStatus => { c with subencStatus := w }
  | .outCap => { c with outCap := clampUnsigned pktCap w }
  | .pktLen => { c with pktLen := clampUnsigned pktCap w }
  | .smpCount => { c with smpCount := clampUnsigned smpCap w }
  | .frmLen0 => { c with frmLen0 := w.extractLsb' 0 16 }
  | .frmLen1 => { c with frmLen1 := w.extractLsb' 0 16 }
  | .frmLen2 => { c with frmLen2 := w.extractLsb' 0 16 }
  | _ => c

/-- A host write of a register other than `CMD`. The read-only registers, which none of the three setters names, keep
their values (R74). -/
def Reg.write (s : State) (w : Word) (r : Reg) : State :=
  { s with cfg := writeConfig s.cfg w r, io := writeCommand s.io w r, col := writeCollab s.col w r }

/-- What stands at a word-aligned address (R61). -/
inductive Target where
  | reg (r : Reg)
  | bytes
  | sample
  | retained
  | reserved
deriving DecidableEq, Repr

/-- The address map (R61): registers, `PKT` and `FRM` (byte buffers), `SMP`, `FECBUF`, everything else reserved. -/
def target (a : Nat) : Target :=
  match regAt a with
  | some r => .reg r
  | none =>
    if pktBase ≤ a ∧ a < pktBase + pktCap then .bytes
    else if frmBase ≤ a ∧ a < frmBase + frmSlots * frmSlotBytes then .bytes
    else if smpBase ≤ a ∧ a < smpBase + 4 * smpCap then .sample
    else if fecBase ≤ a ∧ a < fecBase + 4 * smpCap then .retained
    else .reserved

/-- The four bytes of a word, the least significant first (R63). -/
def wordBytes (w : Word) : List Byte :=
  [w.extractLsb' 0 8, w.extractLsb' 8 8, w.extractLsb' 16 8, w.extractLsb' 24 8]

/-- `MemRead(addr, 4)` at a legal address (R62): registers, little-endian bytes (R63), sign-extended samples (R64),
0 at a reserved address (R71). -/
def hostRead (s : State) (a : Nat) : Word :=
  match target a with
  | .reg r => Reg.read s r
  | .bytes => s.byteAt (a + 3) ++ s.byteAt (a + 2) ++ s.byteAt (a + 1) ++ s.byteAt a
  | .sample => (s.sampleAt a).signExtend _
  | .retained => (s.sampleAt a).signExtend _
  | .reserved => 0

/-- `MemWrite(addr, 4, w)` at a legal address other than `CMD` (R62 to R65): `FECBUF` and reserved addresses ignore it
(R71, R74). -/
def hostWrite (s : State) (a : Nat) (w : Word) : State :=
  match target a with
  | .reg r => Reg.write s w r
  | .bytes => { s with mem := Memory.storeBytes s.mem a (wordBytes w) }
  | .sample => { s with mem := Memory.storeSamples s.mem a [w.extractLsb' 0 24] }
  | .retained => s
  | .reserved => s

/-- The accesses the port takes: 32-bit, aligned, inside the 17-bit space (R62, U5). -/
def accessLegal (addr size : Nat) : Bool := size == 4 && addr % 4 == 0 && decide (addr < addrSpace)

/-- Hardware reset (R280) over the numeric configuration: the state after reset with new, unknown buffer contents (R73);
what the host will do next is kept. -/
def State.hardwareReset (P : NumCfg) (s : State) : State :=
  { State.resetWith P with era := s.era + 1, pending := s.pending }

/-- What the next host access asks of the engine. -/
inductive Served where
  /-- nothing pending: the engine waits (R22, R280) -/
  | idle
  /-- an access that is complete, with the state after it -/
  | done (s : State)
  /-- a write of `CMD`: the command word, and the state the command starts from -/
  | command (w : Word) (s : State)
  /-- an access the port refuses (R62) -/
  | refused (addr size : Nat)

/-- Serve the oldest pending host access (R16, R67). -/
def serve (P : NumCfg) (s : State) : Served :=
  match s.pending with
  | [] => .idle
  | .hardwareReset :: rest => .done (State.hardwareReset P { s with pending := rest })
  | .read addr size :: rest =>
    if accessLegal addr size then .done { s with pending := rest, port := .data (hostRead s addr) }
    else .refused addr size
  | .write addr size w :: rest =>
    if accessLegal addr size then
      if addr = Reg.cmd.addr then .command w { s with pending := rest, port := .written }
      else .done (hostWrite { s with pending := rest, port := .written } addr w)
    else .refused addr size

/-- A word that is no command (R83, R258): `IllegalCommand` with the word. -/
def illegalCommand (s : State) (w : Word) : State := s.takeError w (.illegalCommand w)

end Sys2Proof.Machine
end

