-- ==== Sys2Proof/Machine/Numeric.lean ====
section
/-! DEFINITION. The commands with the numeric configuration as an argument (40_primitives.md R120). `exec` is
`execWith specNum` (`exec_eq_execWith`). -/

namespace Sys2Proof.Machine

open Sys2Proof.Config

/-- One command under the numeric configuration `P`. Only the VAD and DTX commands read it. -/
def execWith (P : NumCfg) (i : Instr) (s : State) : Host.Outcome State Fault Refusal :=
  match i with
  | .nop => execNop s
  | .reset => execReset s
  | .vadInit => runCommand .vadInit s (vadInitBody P s)
  | .vadEval => runCommand .vadEval s (vadEval P s)
  | .dtxDecide => runCommand .dtxDecide s (dtxDecide P s)
  | .fecQuery => execFecQuery s
  | .fecRecord wasActive => execFecRecord wasActive s
  | .fecRate => execFecRate s
  | .brcTarget => execBrcTarget s
  | .brcConform => execBrcConform s
  | .pktPad => execPktPad s
  | .pktCheck => execPktCheck s
  | .pktToc => execPktToc s
  | .pktBuild => execPktBuild s
  | .pktCn => execPktCn s

end Sys2Proof.Machine
end

