-- ==== Sys2Proof/Machine/Step.lean ====
section
/-! DEFINITION. One step: one host access (00_scope.md R16). -/

namespace Sys2Proof.Machine

open Sys2Proof.Config

/-- The outcome of a served access, given what a command does: a write of `CMD` decodes the word and executes the
command, or raises `IllegalCommand` (R80, R83). -/
def outcomeOf (run : Instr → State → Host.Outcome State Fault Refusal) (s : State) :
    Served → Host.Outcome State Fault Refusal
  | .idle => .next s
  | .done t => .next t
  | .refused addr size => .refused (.busError addr size)
  | .command w t =>
    match decode w with
    | .ok i => run i t
    | .error _ => .next (illegalCommand t w)

/-- One step under the numeric configuration `P` (R120). -/
def stepWith (P : NumCfg) (s : State) : Host.Outcome State Fault Refusal := outcomeOf (execWith P) s (serve P s)

/-- One step of the engine, spec instance: `stepWith specNum` (`step_eq_stepWith`). -/
def step (s : State) : Host.Outcome State Fault Refusal := outcomeOf exec s (serve specNum s)

/-- The instruction `w` of `nbits` bits as the next host access: a write of it to `CMD`, before whatever is pending.
The engine takes a command from the data of that write and from nowhere else (R69, log entry 1). -/
def State.withFetchWord (s : State) (nbits w : Nat) : State :=
  { s with pending := .write Reg.cmd.addr 4 (BitVec.ofNat _ (w % 2 ^ nbits)) :: s.pending }

end Sys2Proof.Machine
end

