-- ==== Sys2Proof/Machine/HostScript.lean ====
section
/-! DEFINITION. Host scripts (30_encoding.md R98, R99): the statements `wr`, `rd`, `cmd` as host accesses, and the
per-frame sequence `ENCODE_FRAME` of 46_system.md R234 cut where the host looks at a result. The engine does not run
these: they are what a host may put into `pending`. -/

namespace Sys2Proof.Machine

open Sys2Proof.Config

/-- `wr NAME, value` -/
def wr (r : Reg) (w : Word) : HostAccess := .write r.addr 4 w

/-- `wr 0xADDR, value` -/
def wrAt (addr : Nat) (w : Word) : HostAccess := .write addr 4 w

/-- `rd NAME` -/
def rd (r : Reg) : HostAccess := .read r.addr 4

/-- `rd 0xADDR` -/
def rdAt (addr : Nat) : HostAccess := .read addr 4

/-- `cmd MNEMONIC`: a write of the command's word to `CMD`. -/
def cmd (i : Instr) : HostAccess := .write Reg.cmd.addr 4 (encode i)

/-- What the host brings to one frame (R234): the selector's choice, the frame, the analysis, the rates, the sub-encoder's
payloads (R235). Samples and payloads are given as the words the host writes. -/
structure FrameJob where
  sel : Word
  bw : Word
  samples : List Word
  anaValid : Word
  anaProbQ15 : Word
  n : Word
  fs : Word
  bitrate : Word
  durQ1 : Word
  payload0 : List Word
  payload1 : List Word
  payload2 : List Word
  frmLens : Word × Word × Word
  subencStatus : Word
  len : Word
  active : Bool
deriving DecidableEq, Repr

/-- Words at rising addresses. -/
def wrWords (addr : Nat) : List Word → List HostAccess
  | [] => []
  | w :: rest => wrAt addr w :: wrWords (addr + 4) rest

/-- Steps 1 and 2: validate and plan the packet. -/
def frameCheck (f : FrameJob) : List HostAccess := [wr .arg0 f.sel, wr .arg1 f.bw, cmd .pktCheck, rd .status, rd .res0]

/-- Steps 3 and 4: hand over the frame and decide. -/
def frameDecide (f : FrameJob) : List HostAccess :=
  wrWords smpBase f.samples ++
    [wr .smpCount (BitVec.ofNat _ f.samples.length), wr .anaValid f.anaValid, wr .anaProbQ15 f.anaProbQ15,
      wr .arg0 f.n, wr .arg1 f.fs, cmd .dtxDecide, rd .status, rd .res0]

/-- Step 5, taken when `RES0.SUPPRESS` is set: a comfort-noise packet if `EMIT_CN`, else nothing. -/
def frameSuppressed (decideRes0 tocBase : Word) : List HostAccess :=
  if decideRes0.getLsbD 1 then [wr .arg0 tocBase, cmd .pktCn, rd .status] else []

/-- Step 6: the redundancy question. -/
def frameFecQuery : List HostAccess := [cmd .fecQuery, rd .res0]

/-- Steps 7 and 8: the redundancy rate, only if step 6 said 1, and the target size. -/
def frameRates (f : FrameJob) (queryRes0 : Word) : List HostAccess :=
  (if queryRes0 = 1 then [wr .arg0 f.bitrate, cmd .fecRate, rd .res0] else []) ++
    [wr .arg0 f.bitrate, wr .arg1 f.durQ1, cmd .brcTarget, rd .res0]

/-- Steps 9 to 12, and the read of the packet's length. A host that reads an error in `STATUS` abandons the frame. -/
def framePacket (f : FrameJob) (tocBase units target : Word) : List HostAccess :=
  wrWords frmBase f.payload0 ++ wrWords (frmBase + frmSlotBytes) f.payload1 ++
    wrWords (frmBase + 2 * frmSlotBytes) f.payload2 ++
    [wr .frmLen0 f.frmLens.1, wr .frmLen1 f.frmLens.2.1, wr .frmLen2 f.frmLens.2.2, wr .subencStatus f.subencStatus,
      wr .arg0 tocBase, wr .arg1 units, cmd .pktBuild, rd .status,
      wr .arg0 target, cmd .brcConform, rd .status,
      wr .arg0 f.len, cmd (.fecRecord f.active), rd .status, rd .pktLen]

/-- Step 13: read the packet out. -/
def frameRead (pktLen : Nat) : List HostAccess := (List.range ((pktLen + 3) / 4)).map (fun k => rdAt (pktBase + 4 * k))

end Sys2Proof.Machine
end

