-- ==== Sys2Proof/Safety.lean ====
section
/-! DEFINITION. What a good state and a safe run are, in the terms the claims use: the range invariants of 10_state.md
R44 with what is needed to keep them, and runs that the port never refuses. -/

namespace Sys2Proof.Machine

open Sys2Proof.Config

/-- A signed register within bounds. -/
abbrev inRange (lo hi : Int) (w : Word) : Prop := lo ≤ w.toInt ∧ w.toInt ≤ hi

/-- The ranges of the configuration record (R24, R25, R28, R29, R31, R33, R34, R35, R44). -/
structure ConfigOk (c : ConfigRegs) : Prop where
  fsHz : c.fsHz.toNat ∈ legalRatesHz
  channels : c.channels = 1 ∨ c.channels = 2
  frameSize : c.frameSize.toNat ≤ 65535
  bitrate : 6000 ≤ c.bitrate.toNat ∧ c.bitrate.toNat ≤ 510000
  complexity : c.complexity.toNat ≤ 10
  lossPct : c.lossPct.toNat ≤ 100
  lsbDepth : 8 ≤ c.lsbDepth.toNat ∧ c.lsbDepth.toNat ≤ 24
  cnIntervalQ1 : c.cnIntervalQ1.toNat ≤ 65535

/-- The ranges of the buffer-management registers (R38, R44). -/
structure CollabOk (c : CollabRegs) : Prop where
  anaProbQ15 : c.anaProbQ15.toNat ≤ 32768
  outCap : c.outCap.toNat ≤ pktCap
  pktLen : c.pktLen.toNat ≤ pktCap
  smpCount : c.smpCount.toNat ≤ smpCap

/-- The ranges of the VAD record (R44, R137, R147), with the counter, bias and energy ranges they rest on. -/
structure VadOk (v : VadRegs) : Prop where
  counter : inRange 15 1000 v.counter
  nl : v.nl.All (inRange 0 0x00FFFFFF)
  invNl : v.invNl.All (inRange 1 0x7FFFFFFF)
  noiseBias : v.noiseBias.All (inRange 1 0x7FFFFFFF)
  xnrgSubfr : v.xnrgSubfr.All (inRange 0 0x7FFFFFFF)
  qualityQ15 : v.qualityQ15.All (inRange 0 32767)
  saQ8 : inRange 0 255 v.saQ8

/-- The ranges of the DTX record (R40, R44, R165, R168, R169): suppression outputs agree, comfort noise only while
suppressed, energies at most 2^46 (log entry 11). -/
structure DtxOk (d : DtxRegs) : Prop where
  durQ1 : d.durQ1.toNat ≤ 1200
  suppress : d.stat.inDtx = d.stat.lastSuppress
  emitCn : d.stat.lastEmitCn = true → d.stat.lastSuppress = true
  peak : d.peak.toNat ≤ 2 ^ 46
  energy : d.energy.toNat ≤ 2 ^ 46

/-- The ranges of the FEC record (R41, R44). -/
structure FecOk (f : FecRegs) : Prop where
  prevLen : f.prevLen.toNat ≤ smpCap
  havePrev : f.havePrev = true → 1 ≤ f.prevLen.toNat

/-- An address at which a buffer holds a byte (R61); the fourth byte of a sample word is no storage (R64). -/
abbrev isBufferByte (a : Nat) : Prop :=
  (pktBase ≤ a ∧ a < pktBase + pktCap) ∨ (frmBase ≤ a ∧ a < frmBase + frmSlots * frmSlotBytes) ∨
    (smpBase ≤ a ∧ a < smpBase + 4 * smpCap ∧ a % 4 ≠ 3) ∨ (fecBase ≤ a ∧ a < fecBase + 4 * smpCap ∧ a % 4 ≠ 3)

/-- The memory is canonical and lists only bytes of the four buffers (R42). -/
structure MemOk (m : Memory) : Prop where
  wf : m.wf
  inBuffers : ∀ c ∈ m, isBufferByte c.1

/-- THE INVARIANT of the machine: R44 and what keeps it. -/
structure Inv (s : State) : Prop where
  cfg : ConfigOk s.cfg
  col : CollabOk s.col
  vad : VadOk s.vad
  dtx : DtxOk s.dtx
  fec : FecOk s.fec
  mem : MemOk s.mem

/-- The list of R44, word for word. -/
structure Ranges (s : State) : Prop where
  bitrate : 6000 ≤ s.cfg.bitrate.toNat ∧ s.cfg.bitrate.toNat ≤ 510000
  complexity : s.cfg.complexity.toNat ≤ 10
  lossPct : s.cfg.lossPct.toNat ≤ 100
  lsbDepth : 8 ≤ s.cfg.lsbDepth.toNat ∧ s.cfg.lsbDepth.toNat ≤ 24
  saQ8 : inRange 0 255 s.vad.saQ8
  qualityQ15 : s.vad.qualityQ15.All (inRange 0 32767)
  nl : s.vad.nl.All (inRange 0 0x00FFFFFF)
  invNl : s.vad.invNl.All (fun w => 1 ≤ w.toInt)
  durQ1 : s.dtx.durQ1.toNat ≤ 1200
  havePrev : s.fec.havePrev = true → 1 ≤ s.fec.prevLen.toNat
  pktLen : s.col.pktLen.toNat ≤ 4096
  smpCount : s.col.smpCount.toNat ≤ 5760
  outCap : s.col.outCap.toNat ≤ 4096

/-- A host access that the port takes (R62). -/
def HostAccess.legal : HostAccess → Bool
  | .write addr size _ => accessLegal addr size
  | .read addr size => accessLegal addr size
  | .hardwareReset => true

/-- A host script whose accesses the port takes, every one. -/
def scriptLegal (script : List HostAccess) : Bool := script.all HostAccess.legal

/-- The state after reset with a host script waiting. -/
def withScript (script : List HostAccess) : State := { State.reset with pending := script }

/-- A SAFE RUN of `n` steps of the script from reset: it is never refused. -/
def safeRun (script : List HostAccess) (n : Nat) : Prop := ∃ t, Sys2Proof.core.run n (withScript script) = .next t

end Sys2Proof.Machine
end

