-- ==== Sys2Proof/Certificates/Slice0/Obligations.lean ====
section
/-! DEFINITION. The statements for the provers. `s.complete w r0 r1` and `s.takeError w e` are the two completions of a
command word (R256); what they write is stated once, in `CompletionsWriteOnlyTheCompletionRegisters`, and used after. -/

open Sys2Proof Sys2Proof.Machine Sys2Proof.Config

/-! ### The machine -/

/-- R80: a write of `CMD` decodes the word and executes the command; the access is consumed and the port says so. R120:
so it is under every numeric configuration, and `step` is the spec's instance. -/
def Obligations.StepRunsTheDecodedCommand : Prop :=
  (∀ (s : State) (w : Word) (rest : List HostAccess) (i : Instr),
    s.pending = .write 0x040 4 w :: rest → decode w = .ok i →
    step s = exec i { s with pending := rest, port := .written } ∧
    ∀ P : NumCfg, stepWith P s = execWith P i { s with pending := rest, port := .written }) ∧
  (∀ s : State, step s = stepWith specNum s) ∧ (∀ (i : Instr) (s : State), exec i s = execWith specNum i s)

/-- R258: a word that is no command raises `IllegalCommand` with `ERR_INFO` the word, and nothing is executed. -/
def Obligations.IllegalWordCompletesWithIllegalCommand : Prop :=
  ∀ (s : State) (w : Word) (rest : List HostAccess),
    s.pending = .write 0x040 4 w :: rest → (commandFields w).wellFormed = false →
    step s = .next { s with
      pending := rest
      port := .written
      io := { s.io with
        status := ⟨6, true⟩
        errInfo := w
        res0 := 0
        res1 := 0
        irqPend := true
        cmd := w
        cmdSeq := s.io.cmdSeq + 1 } }

/-- R83 by match and mask: the words that decode are the 14 exact ones and 0x31 under the mask 0xFFFFFEFF; they are the
words the legality check accepts. -/
def Obligations.DecoderAcceptsExactlyTheLegalWords : Prop :=
  ∀ w : Word,
    ((∃ i, decode w = .ok i) ↔ (commandFields w).wellFormed = true) ∧
    ((∃ i, decode w = .ok i) ↔
      w ∈ ([0x00, 0x01, 0x02, 0x10, 0x20, 0x30, 0x32, 0x40, 0x41, 0x42, 0x50, 0x51, 0x52, 0x53] : List Word) ∨
        w &&& 0xFFFFFEFF = 0x31)

/-- Decoding and encoding agree on all 2^32 words: a word decodes to a command exactly when it is that command's word. -/
def Obligations.DecodeAndEncodeAgree : Prop :=
  ∀ (w : Word) (i : Instr), decode w = .ok i ↔ w = encode i

/-- Words written out from the table of R81, one per family. -/
def Obligations.WrittenOutWordsDecode : Prop :=
  decode 0x00000000 = .ok .nop ∧ decode 0x00000001 = .ok .reset ∧ decode 0x00000010 = .ok .vadEval ∧
  decode 0x00000020 = .ok .dtxDecide ∧ decode 0x00000031 = .ok (.fecRecord false) ∧
  decode 0x00000131 = .ok (.fecRecord true) ∧ decode 0x00000041 = .ok .brcConform ∧
  decode 0x00000042 = .ok .pktPad ∧ decode 0x00000052 = .ok .pktBuild ∧
  decode 0x00000231 = .error .flagBits ∧ decode 0x00000054 = .error .unknownOpcode ∧
  decode 0x00010000 = .error .zeroField

/-- R22: every write of `CMD` completes, legal or not, and counts once in `CMD_SEQ`; nothing else the host does but a
hardware reset touches `CMD` or `CMD_SEQ`. -/
def Obligations.CmdSeqCountsTheWritesOfCmd : Prop :=
  (∀ (s : State) (w : Word) (rest : List HostAccess), s.pending = .write 0x040 4 w :: rest →
    ∃ t, step s = .next t ∧ t.io.cmd = w ∧ t.io.cmdSeq = s.io.cmdSeq + 1 ∧ t.io.status.valid = true) ∧
  (∀ (s t : State) (a : HostAccess) (rest : List HostAccess), s.pending = a :: rest →
    (∀ w, a ≠ .write 0x040 4 w) → a ≠ .hardwareReset → step s = .next t →
    t.io.cmd = s.io.cmd ∧ t.io.cmdSeq = s.io.cmdSeq ∧ t.io.status = s.io.status ∧ t.io.res0 = s.io.res0 ∧
      t.io.res1 = s.io.res1 ∧ t.io.errInfo = s.io.errInfo)

/-- R256: what the success and the error completion write, and that they write nothing else. R251: the number and the
information word of each of the seven errors. -/
def Obligations.CompletionsWriteOnlyTheCompletionRegisters : Prop :=
  (∀ (s : State) (w r0 r1 : Word), s.complete w r0 r1 =
    { s with io := { s.io with
        status := ⟨0, true⟩, errInfo := 0, res0 := r0, res1 := r1, cmd := w, cmdSeq := s.io.cmdSeq + 1 } }) ∧
  (∀ (s : State) (w : Word) (e : CmdError), s.takeError w e =
    { s with io := { s.io with
        status := ⟨e.code, true⟩, errInfo := e.info, res0 := 0, res1 := 0, irqPend := true, cmd := w,
        cmdSeq := s.io.cmdSeq + 1 } }) ∧
  (∀ x : Word,
    (CmdError.invalidFrameSize x).code = 1 ∧ (CmdError.invalidFrameSize x).info = x ∧
    (CmdError.subEncoderFailure x).code = 2 ∧ (CmdError.subEncoderFailure x).info = x ∧
    (CmdError.bufferTooSmall x).code = 3 ∧ (CmdError.bufferTooSmall x).info = x ∧
    (CmdError.rateViolation x).code = 4 ∧ (CmdError.rateViolation x).info = x ∧
    (CmdError.badOperand x).code = 5 ∧ (CmdError.badOperand x).info = x ∧
    (CmdError.illegalCommand x).code = 6 ∧ (CmdError.illegalCommand x).info = x ∧
    (CmdError.sequenceError x).code = 7 ∧ (CmdError.sequenceError x).info = x)

/-- R256 over all commands: `STATUS.VALID` is set, `CMD` takes the word, and either a success (code 0, `ERR_INFO` 0, the
pending bit untouched) or an error (a code 1 to 7, results 0, the pending bit set). -/
def Obligations.EveryCommandEndsInSuccessOrError : Prop :=
  ∀ (i : Instr) (s : State), ∃ t, exec i s = .next t ∧
    t.io.status.valid = true ∧ t.io.cmd = encode i ∧ t.io.cmdSeq = s.io.cmdSeq + 1 ∧
    ((t.io.status.err = 0 ∧ t.io.errInfo = 0 ∧ t.io.irqPend = s.io.irqPend) ∨
      (1 ≤ t.io.status.err.toNat ∧ t.io.status.err.toNat ≤ 7 ∧ t.io.res0 = 0 ∧ t.io.res1 = 0 ∧
        t.io.irqPend = true))

/-- R261: a failing command changes nothing but `STATUS`, `ERR_INFO`, `RES0`, `RES1`, `IRQ_PEND`, `CMD`, `CMD_SEQ`; R120:
under every numeric configuration, of which `exec` is the spec's instance. -/
def Obligations.FailingCommandChangesOnlyTheCompletion : Prop :=
  (∀ (i : Instr) (s t : State), exec i s = .next t → t.io.status.err ≠ 0 →
    t = { s with io := { s.io with
        status := t.io.status, errInfo := t.io.errInfo, res0 := 0, res1 := 0, irqPend := true, cmd := encode i,
        cmdSeq := s.io.cmdSeq + 1 } }) ∧
  (∀ (P : NumCfg) (i : Instr) (s t : State), execWith P i s = .next t → t.io.status.err ≠ 0 →
    t = { s with io := { s.io with
        status := t.io.status, errInfo := t.io.errInfo, res0 := 0, res1 := 0, irqPend := true, cmd := encode i,
        cmdSeq := s.io.cmdSeq + 1 } })

/-- R21, R32, R38: no command writes a configuration register, an operand register, `IRQ_EN`, or a collaborator register
other than `PKT_LEN`; nor the model's own fields. -/
def Obligations.CommandsKeepTheHostsRegisters : Prop :=
  ∀ (i : Instr) (s t : State), exec i s = .next t →
    t.cfg = s.cfg ∧ t.io.arg0 = s.io.arg0 ∧ t.io.arg1 = s.io.arg1 ∧ t.io.arg2 = s.io.arg2 ∧ t.io.irqEn = s.io.irqEn ∧
    t.col = { s.col with pktLen := t.col.pktLen } ∧ t.era = s.era ∧ t.pending = s.pending ∧ t.port = s.port

/-- R39, R40, R41: which commands write the VAD, DTX and FEC records; `FEC.RECORD` touches one bit of the DTX record. -/
def Obligations.RecordsAreWrittenByTheirCommands : Prop :=
  ∀ (i : Instr) (s t : State), exec i s = .next t →
    (i ≠ .vadInit → i ≠ .vadEval → i ≠ .dtxDecide → t.vad = s.vad) ∧
    (i ≠ .reset → i ≠ .dtxDecide →
      t.dtx = { s.dtx with stat := { s.dtx.stat with decisionValid := t.dtx.stat.decisionValid } }) ∧
    (i ≠ .reset → i ≠ .dtxDecide → (∀ b, i ≠ .fecRecord b) → t.dtx = s.dtx) ∧
    (i ≠ .reset → (∀ b, i ≠ .fecRecord b) → t.fec = s.fec)

/-- R72: the framing commands write `PKT` and nothing else of the buffers, `FEC.RECORD` writes `FECBUF`, every other
command writes no byte; `FRM` and `SMP` are written by no command. The premise is the range of `OUT_CAP` (R44). -/
def Obligations.BuffersAreWrittenByTheirCommands : Prop :=
  ∀ (i : Instr) (s t : State), CollabOk s.col → exec i s = .next t →
    (∀ a, (a < 0x1000 ∨ 0x2000 ≤ a) → (a < 0x10000 ∨ 0x15A00 ≤ a) → t.byteAt a = s.byteAt a) ∧
    (i ≠ .pktPad → i ≠ .brcConform → i ≠ .pktBuild → i ≠ .pktCn →
      t.col.pktLen = s.col.pktLen ∧ ∀ a, (a < 0x10000 ∨ 0x15A00 ≤ a) → t.byteAt a = s.byteAt a) ∧
    ((∀ b, i ≠ .fecRecord b) → ∀ a, (a < 0x1000 ∨ 0x2000 ≤ a) → t.byteAt a = s.byteAt a)

/-- The invariant holds after reset. -/
def Obligations.ResetSatisfiesTheInvariant : Prop := Inv State.reset

/-- R44 and what it rests on: EVERY STEP KEEPS THE INVARIANT, from every state that has it. -/
def Obligations.EveryStepKeepsTheInvariant : Prop :=
  ∀ s t : State, Inv s → step s = .next t → Inv t

/-- R44: the ranges hold after reset and are preserved by every command and every host access, so in every state that any
host script reaches. -/
def Obligations.RangesHoldUnderEveryHostScript : Prop :=
  ∀ (script : List HostAccess) (n : Nat) (t : State),
    Sys2Proof.core.run n (withScript script) = .next t → Ranges t

/-- R287, R250: a script of accesses the port takes runs to its end, whatever the commands and operands in it. -/
def Obligations.LegalScriptsAlwaysRunToTheirEnd : Prop :=
  ∀ script : List HostAccess, scriptLegal script = true →
    ∃ t, Sys2Proof.core.run script.length (withScript script) = .next t ∧ t.pending = []

/-! ### The slave port -/

/-- R62: an access that is not 32 bits wide, not aligned, or outside the 17-bit space is refused. -/
def Obligations.BadBusAccessIsRefused : Prop :=
  ∀ (s : State) (addr size : Nat) (rest : List HostAccess), (size ≠ 4 ∨ addr % 4 ≠ 0 ∨ 0x20000 ≤ addr) →
    (s.pending = .read addr size :: rest → step s = .refused (.busError addr size)) ∧
    (∀ w, s.pending = .write addr size w :: rest → step s = .refused (.busError addr size))

/-- R62, R65, R67: a legal access is served whole before the next. A read answers the word and changes nothing of the
engine; a write anywhere but at `CMD` does what `hostWrite` says. What a read returns: every register, the configuration
record (R24 to R35), the command block and interrupt registers (R36, R37), the collaborator registers (R38), the VAD, DTX
and FEC views (R39, R40, R41, R233), and the buffers (R63, R64). The codes of the enumerations are those of
`CfgIndexIsTheConfigurationTable`. -/
def Obligations.HostReadHasNoSideEffect : Prop :=
  (∀ (s : State) (addr : Nat) (rest : List HostAccess), addr % 4 = 0 → addr < 0x20000 →
    (s.pending = .read addr 4 :: rest →
      step s = .next { s with pending := rest, port := .data (hostRead s addr) }) ∧
    (∀ w : Word, addr ≠ 0x040 → s.pending = .write addr 4 w :: rest →
      step s = .next (hostWrite { s with pending := rest, port := .written } addr w))) ∧
  (∀ s : State,
    hostRead s 0x000 = s.cfg.fsHz ∧ hostRead s 0x004 = s.cfg.channels ∧ hostRead s 0x008 = s.cfg.mode.code ∧
    hostRead s 0x00C = s.cfg.bandwidth.code ∧ hostRead s 0x010 = s.cfg.frameSize ∧ hostRead s 0x014 = s.cfg.bitrate ∧
    hostRead s 0x018 = s.cfg.rateMode.code ∧ hostRead s 0x01C = s.cfg.complexity ∧
    (hostRead s 0x020).toNat = s.cfg.flags.fecEn.toNat + 2 * s.cfg.flags.dtxEn.toNat + 4 * s.cfg.flags.lfe.toNat
      + 8 * s.cfg.flags.predDisabled.toNat ∧
    hostRead s 0x024 = s.cfg.lossPct ∧ hostRead s 0x028 = s.cfg.lsbDepth ∧ hostRead s 0x02C = s.cfg.cnIntervalQ1) ∧
  (∀ s : State,
    (hostRead s 0x080).toNat = s.col.anaValid.toNat ∧ hostRead s 0x084 = s.col.anaProbQ15 ∧
    hostRead s 0x088 = s.col.subencStatus ∧ hostRead s 0x08C = s.col.outCap ∧ hostRead s 0x090 = s.col.pktLen ∧
    hostRead s 0x094 = s.col.smpCount ∧ hostRead s 0x0A0 = s.col.frmLen0.setWidth 32 ∧
    hostRead s 0x0A4 = s.col.frmLen1.setWidth 32 ∧ hostRead s 0x0A8 = s.col.frmLen2.setWidth 32) ∧
  (∀ s : State,
    hostRead s 0x040 = s.io.cmd ∧ hostRead s 0x044 = s.io.arg0 ∧ hostRead s 0x048 = s.io.arg1 ∧
    hostRead s 0x04C = s.io.arg2 ∧ (hostRead s 0x064).toNat = s.io.irqEn.toNat ∧
    (hostRead s 0x050).toNat = s.io.status.err.toNat + 256 * s.io.status.valid.toNat ∧
    hostRead s 0x054 = s.io.res0 ∧ hostRead s 0x058 = s.io.res1 ∧ hostRead s 0x05C = s.io.errInfo ∧
    hostRead s 0x060 = s.io.cmdSeq ∧ (hostRead s 0x068).toNat = s.io.irqPend.toNat) ∧
  (∀ s : State,
    hostRead s 0x100 = s.vad.ana0.s0 ∧ hostRead s 0x104 = s.vad.ana0.s1 ∧ hostRead s 0x108 = s.vad.ana1.s0 ∧
    hostRead s 0x10C = s.vad.ana1.s1 ∧ hostRead s 0x110 = s.vad.ana2.s0 ∧ hostRead s 0x114 = s.vad.ana2.s1 ∧
    hostRead s 0x118 = s.vad.hpState.signExtend 32 ∧ hostRead s 0x11C = s.vad.counter ∧
    (∀ b : Fin 4,
      hostRead s (0x120 + 4 * b.val) = s.vad.nl.get b ∧ hostRead s (0x130 + 4 * b.val) = s.vad.invNl.get b ∧
      hostRead s (0x140 + 4 * b.val) = s.vad.nrgRatioSmthQ8.get b ∧
      hostRead s (0x150 + 4 * b.val) = s.vad.noiseBias.get b ∧
      hostRead s (0x160 + 4 * b.val) = s.vad.xnrgSubfr.get b ∧
      hostRead s (0x170 + 4 * b.val) = s.vad.qualityQ15.get b) ∧
    hostRead s 0x180 = s.vad.saQ8 ∧ hostRead s 0x184 = s.vad.tiltQ15 ∧
    (hostRead s 0x188).toNat = s.vad.active.toNat) ∧
  (∀ s : State,
    hostRead s 0x1A0 = s.dtx.durQ1 ∧
    (hostRead s 0x1A4).toNat = s.dtx.stat.inDtx.toNat + 2 * s.dtx.stat.lastSuppress.toNat
      + 4 * s.dtx.stat.lastEmitCn.toNat + 8 * s.dtx.stat.lastActive.toNat + 16 * s.dtx.stat.lastSilence.toNat
      + 256 * s.dtx.stat.decisionValid.toNat ∧
    (hostRead s 0x1A8).toNat + 2 ^ 32 * (hostRead s 0x1AC).toNat = s.dtx.peak.toNat ∧
    hostRead s 0x1B0 = s.dtx.frameDurQ1 ∧ hostRead s 0x1B4 = s.dtx.cnElapsedQ1 ∧
    (hostRead s 0x1B8).toNat + 2 ^ 32 * (hostRead s 0x1BC).toNat = s.dtx.energy.toNat ∧
    (hostRead s 0x1C0).toNat = s.fec.havePrev.toNat + 2 * s.fec.prevActive.toNat ∧
    hostRead s 0x1C4 = s.fec.prevLen ∧ hostRead s 0x1C8 = s.fec.frameCount) ∧
  (∀ (s : State) (a : Nat), a % 4 = 0 →
    ((0x1000 ≤ a ∧ a < 0x2F00) →
      hostRead s a = s.byteAt (a + 3) ++ s.byteAt (a + 2) ++ s.byteAt (a + 1) ++ s.byteAt a) ∧
    (((0x8000 ≤ a ∧ a < 0xDA00) ∨ (0x10000 ≤ a ∧ a < 0x15A00)) → hostRead s a = (s.sampleAt a).signExtend 32))

/-- R24 to R38, R232: what each writable register reads after a write of `w`; and what the write does to the state: the
field the commands read takes the legalised value, and nothing else changes. -/
def Obligations.RegistersStoreTheLegalisedValue : Prop :=
  (∀ (s : State) (w : Word),
    hostRead (hostWrite s 0x000 w) 0x000 =
      (if w.toNat ∈ [8000, 12000, 16000, 24000, 48000] then w else hostRead s 0x000) ∧
    hostRead (hostWrite s 0x004 w) 0x004 = (if w = 1 ∨ w = 2 then w else hostRead s 0x004) ∧
    hostRead (hostWrite s 0x008 w) 0x008 = (if w.toNat ≤ 3 then w else hostRead s 0x008) ∧
    hostRead (hostWrite s 0x00C w) 0x00C = (if w.toNat ≤ 4 then w else hostRead s 0x00C) ∧
    hostRead (hostWrite s 0x010 w) 0x010 = BitVec.ofNat 32 (min w.toNat 65535) ∧
    hostRead (hostWrite s 0x014 w) 0x014 = BitVec.ofInt 32 (min (max w.toInt 6000) 510000) ∧
    hostRead (hostWrite s 0x018 w) 0x018 = (if w.toNat ≤ 2 then w else hostRead s 0x018) ∧
    hostRead (hostWrite s 0x01C w) 0x01C = BitVec.ofInt 32 (min (max w.toInt 0) 10) ∧
    hostRead (hostWrite s 0x020 w) 0x020 = w &&& 0xF ∧
    hostRead (hostWrite s 0x024 w) 0x024 = BitVec.ofInt 32 (min (max w.toInt 0) 100) ∧
    hostRead (hostWrite s 0x028 w) 0x028 = BitVec.ofInt 32 (min (max w.toInt 8) 24) ∧
    hostRead (hostWrite s 0x02C w) 0x02C = BitVec.ofNat 32 (min w.toNat 65535) ∧
    hostRead (hostWrite s 0x044 w) 0x044 = w ∧
    hostRead (hostWrite s 0x048 w) 0x048 = w ∧
    hostRead (hostWrite s 0x04C w) 0x04C = w ∧
    hostRead (hostWrite s 0x064 w) 0x064 = w &&& 1 ∧
    hostRead (hostWrite s 0x080 w) 0x080 = w &&& 1 ∧
    hostRead (hostWrite s 0x084 w) 0x084 = BitVec.ofNat 32 (min w.toNat 32768) ∧
    hostRead (hostWrite s 0x088 w) 0x088 = w ∧
    hostRead (hostWrite s 0x08C w) 0x08C = BitVec.ofNat 32 (min w.toNat 4096) ∧
    hostRead (hostWrite s 0x090 w) 0x090 = BitVec.ofNat 32 (min w.toNat 4096) ∧
    hostRead (hostWrite s 0x094 w) 0x094 = BitVec.ofNat 32 (min w.toNat 5760) ∧
    hostRead (hostWrite s 0x0A0 w) 0x0A0 = w &&& 0xFFFF ∧
    hostRead (hostWrite s 0x0A4 w) 0x0A4 = w &&& 0xFFFF ∧
    hostRead (hostWrite s 0x0A8 w) 0x0A8 = w &&& 0xFFFF) ∧
  (∀ (s : State) (w : Word),
    hostWrite s 0x000 w = { s with cfg := { s.cfg with
      fsHz := if w.toNat ∈ [8000, 12000, 16000, 24000, 48000] then w else s.cfg.fsHz } } ∧
    hostWrite s 0x004 w = { s with cfg := { s.cfg with channels := if w = 1 ∨ w = 2 then w else s.cfg.channels } } ∧
    hostWrite s 0x008 w = { s with cfg := { s.cfg with
      mode := if w = 0 then .auto else if w = 1 then .speech else if w = 2 then .transform else if w = 3 then .hybrid
        else s.cfg.mode } } ∧
    hostWrite s 0x00C w = { s with cfg := { s.cfg with
      bandwidth := if w = 0 then .narrow else if w = 1 then .medium else if w = 2 then .wide else if w = 3 then .superWide
        else if w = 4 then .full else s.cfg.bandwidth } } ∧
    hostWrite s 0x010 w = { s with cfg := { s.cfg with frameSize := BitVec.ofNat 32 (min w.toNat 65535) } } ∧
    hostWrite s 0x014 w = { s with cfg := { s.cfg with
      bitrate := BitVec.ofInt 32 (min (max w.toInt 6000) 510000) } } ∧
    hostWrite s 0x018 w = { s with cfg := { s.cfg with
      rateMode := if w = 0 then .vbr else if w = 1 then .cvbr else if w = 2 then .cbr else s.cfg.rateMode } } ∧
    hostWrite s 0x01C w = { s with cfg := { s.cfg with complexity := BitVec.ofInt 32 (min (max w.toInt 0) 10) } } ∧
    hostWrite s 0x020 w = { s with cfg := { s.cfg with
      flags := { fecEn := w.getLsbD 0, dtxEn := w.getLsbD 1, lfe := w.getLsbD 2, predDisabled := w.getLsbD 3 } } } ∧
    hostWrite s 0x024 w = { s with cfg := { s.cfg with lossPct := BitVec.ofInt 32 (min (max w.toInt 0) 100) } } ∧
    hostWrite s 0x028 w = { s with cfg := { s.cfg with lsbDepth := BitVec.ofInt 32 (min (max w.toInt 8) 24) } } ∧
    hostWrite s 0x02C w = { s with cfg := { s.cfg with cnIntervalQ1 := BitVec.ofNat 32 (min w.toNat 65535) } }) ∧
  (∀ (s : State) (w : Word),
    hostWrite s 0x044 w = { s with io := { s.io with arg0 := w } } ∧
    hostWrite s 0x048 w = { s with io := { s.io with arg1 := w } } ∧
    hostWrite s 0x04C w = { s with io := { s.io with arg2 := w } } ∧
    hostWrite s 0x064 w = { s with io := { s.io with irqEn := w.getLsbD 0 } } ∧
    hostWrite s 0x068 w = { s with io := { s.io with irqPend := s.io.irqPend && !w.getLsbD 0 } } ∧
    hostWrite s 0x080 w = { s with col := { s.col with anaValid := w.getLsbD 0 } } ∧
    hostWrite s 0x084 w = { s with col := { s.col with anaProbQ15 := BitVec.ofNat 32 (min w.toNat 32768) } } ∧
    hostWrite s 0x088 w = { s with col := { s.col with subencStatus := w } } ∧
    hostWrite s 0x08C w = { s with col := { s.col with outCap := BitVec.ofNat 32 (min w.toNat 4096) } } ∧
    hostWrite s 0x090 w = { s with col := { s.col with pktLen := BitVec.ofNat 32 (min w.toNat 4096) } } ∧
    hostWrite s 0x094 w = { s with col := { s.col with smpCount := BitVec.ofNat 32 (min w.toNat 5760) } } ∧
    hostWrite s 0x0A0 w = { s with col := { s.col with frmLen0 := w.extractLsb' 0 16 } } ∧
    hostWrite s 0x0A4 w = { s with col := { s.col with frmLen1 := w.extractLsb' 0 16 } } ∧
    hostWrite s 0x0A8 w = { s with col := { s.col with frmLen2 := w.extractLsb' 0 16 } })

/-- R65, R74: a write of one register changes no other register, no view, no buffer byte (an unwritten byte is read by the
era, which is kept) and neither of the model's other fields; a write of a read-only register changes nothing at all. -/
def Obligations.RegisterWriteChangesOnlyThatRegister : Prop :=
  ∀ (s : State) (w : Word) (r : Reg), r ≠ .cmd →
    (∀ r', r' ≠ r → Reg.read (hostWrite s r.addr w) r' = Reg.read s r') ∧
    (hostWrite s r.addr w).mem = s.mem ∧ (hostWrite s r.addr w).vad = s.vad ∧ (hostWrite s r.addr w).dtx = s.dtx ∧
    (hostWrite s r.addr w).fec = s.fec ∧ (hostWrite s r.addr w).era = s.era ∧
    (hostWrite s r.addr w).pending = s.pending ∧ (hostWrite s r.addr w).port = s.port ∧
    (∀ a, (hostWrite s r.addr w).byteAt a = s.byteAt a) ∧
    ((r = .status ∨ r = .res0 ∨ r = .res1 ∨ r = .errInfo ∨ r = .cmdSeq ∨ 0x100 ≤ r.addr) → hostWrite s r.addr w = s)

/-- R37, R262, R263: `IRQ_PEND` is write-one-to-clear, and `irq` is the pending bit under the enable. -/
def Obligations.InterruptIsPendingUnderEnableAndWriteOneToClear : Prop :=
  ∀ (s : State) (w : Word),
    (hostWrite s 0x068 w).io.irqPend = (s.io.irqPend && !w.getLsbD 0) ∧
    (hostWrite s 0x068 w).io.status = s.io.status ∧
    (s.irq = true ↔ s.io.irqEn = true ∧ s.io.irqPend = true) ∧
    (w.getLsbD 0 = true → (hostWrite s 0x068 w).irq = false)

/-- R63: a word written to `PKT` or `FRM` is four bytes, least significant first; it reads back; no other byte changes. -/
def Obligations.ByteBufferWordsAreLittleEndian : Prop :=
  ∀ (s : State) (a : Nat) (w : Word), a % 4 = 0 → ((0x1000 ≤ a ∧ a < 0x2000) ∨ (0x2000 ≤ a ∧ a < 0x2F00)) →
    (∀ k, k < 4 → (hostWrite s a w).byteAt (a + k) = w.extractLsb' (8 * k) 8) ∧
    (∀ b, (b < a ∨ a + 4 ≤ b) → (hostWrite s a w).byteAt b = s.byteAt b) ∧
    hostRead (hostWrite s a w) a = w ∧
    hostWrite s a w = { s with mem := (hostWrite s a w).mem }

/-- R64: a word written to `SMP` keeps its low 24 bits and reads back sign-extended; no other byte changes. -/
def Obligations.SampleWordsHoldTwentyFourBits : Prop :=
  ∀ (s : State) (i : Nat) (w : Word), i < 5760 →
    (hostWrite s (0x8000 + 4 * i) w).sampleAt (0x8000 + 4 * i) = w.extractLsb' 0 24 ∧
    hostRead (hostWrite s (0x8000 + 4 * i) w) (0x8000 + 4 * i) = (w.extractLsb' 0 24).signExtend 32 ∧
    (∀ b, (b < 0x8000 + 4 * i ∨ 0x8000 + 4 * i + 4 ≤ b) → (hostWrite s (0x8000 + 4 * i) w).byteAt b = s.byteAt b) ∧
    hostWrite s (0x8000 + 4 * i) w = { s with mem := (hostWrite s (0x8000 + 4 * i) w).mem }

/-- R71, R74: reserved addresses read 0 and ignore writes; `FECBUF` ignores writes. -/
def Obligations.ReservedAndRetainedAddressesIgnoreWrites : Prop :=
  ∀ (s : State) (a : Nat) (w : Word), a % 4 = 0 →
    (((0x30 ≤ a ∧ a < 0x40) ∨ (0x6C ≤ a ∧ a < 0x80) ∨ (0x98 ≤ a ∧ a < 0xA0) ∨ (0xAC ≤ a ∧ a < 0x100) ∨
        (0x18C ≤ a ∧ a < 0x1A0) ∨ (0x1CC ≤ a ∧ a < 0x1000) ∨ (0x2F00 ≤ a ∧ a < 0x8000) ∨
        (0xDA00 ≤ a ∧ a < 0x10000) ∨ (0x15A00 ≤ a ∧ a < 0x20000)) →
      hostRead s a = 0 ∧ hostWrite s a w = s) ∧
    (0x10000 ≤ a ∧ a < 0x15A00 → hostWrite s a w = s)

/-- R280: hardware reset puts every register at its reset value, `OUT_CAP` 4096 among the zeros of its block, and the VAD
record where `VAD.INIT` puts it; under every numeric configuration (R45, R120) too, the comfort-noise interval then being
the configuration's. The reset is an event of the access list, taken between two accesses (log entries 1 and 5); it
empties the port's answer (log entry 6); what it does to the buffers is to forget them (new unknown contents, log entries
2 and 3). -/
def Obligations.HardwareResetRestoresEveryRegister : Prop :=
  ∀ (s : State) (rest : List HostAccess), s.pending = .hardwareReset :: rest →
    (∃ t, step s = .next t ∧
      t.cfg = ⟨48000, 1, .auto, .full, 960, 64000, .vbr, 10, ⟨false, false, false, false⟩, 0, 24, 800⟩ ∧
      t.io = ⟨0, 0, 0, 0, ⟨0, false⟩, 0, 0, 0, 0, false, false⟩ ∧
      t.col = ⟨false, 0, 0, 4096, 0, 0, 0, 0, 0⟩ ∧
      t.vad = ⟨⟨0, 0⟩, ⟨0, 0⟩, ⟨0, 0⟩, 0, 15, ⟨5000, 2500, 1600, 1200⟩, ⟨429496, 858993, 1342177, 1789569⟩,
        ⟨25600, 25600, 25600, 25600⟩, ⟨50, 25, 16, 12⟩, ⟨0, 0, 0, 0⟩, ⟨0, 0, 0, 0⟩, 0, 0, false⟩ ∧
      t.dtx = ⟨0, ⟨false, false, false, false, false, false⟩, 0, 0, 0, 0⟩ ∧
      t.fec = ⟨false, false, 0, 0⟩ ∧ t.irq = false ∧ t.mem = [] ∧ t.era = s.era + 1 ∧ t.pending = rest ∧
      t.port = .none) ∧
    (∀ P : NumCfg, ∃ u, execWith P .vadInit s = .next u ∧ stepWith P s = .next {
      cfg := ⟨48000, 1, .auto, .full, 960, 64000, .vbr, 10, ⟨false, false, false, false⟩, 0, 24,
        BitVec.ofNat 32 P.cnIntervalReset⟩
      io := ⟨0, 0, 0, 0, ⟨0, false⟩, 0, 0, 0, 0, false, false⟩
      col := ⟨false, 0, 0, 4096, 0, 0, 0, 0, 0⟩
      vad := u.vad
      dtx := ⟨0, ⟨false, false, false, false, false, false⟩, 0, 0, 0, 0⟩
      fec := ⟨false, false, 0, 0⟩
      mem := []
      era := s.era + 1
      pending := rest
      port := .none })

/-! ### System commands -/

/-- R230: `NOP` writes the completion registers and nothing else. -/
def Obligations.NopWritesOnlyTheCompletion : Prop :=
  ∀ s : State, exec .nop s = .next { s with io := { s.io with
    status := ⟨0, true⟩, res0 := 0, res1 := 0, errInfo := 0, cmd := 0, cmdSeq := s.io.cmdSeq + 1 } }

/-- R231: `RESET` zeroes the DTX and FEC records and changes nothing else; the VAD record is kept. -/
def Obligations.ResetCommandClearsDtxAndFecOnly : Prop :=
  ∀ s : State, exec .reset s = .next (({ s with
      dtx := { durQ1 := 0, stat := ⟨false, false, false, false, false, false⟩, peak := 0, frameDurQ1 := 0,
               cnElapsedQ1 := 0, energy := 0 }
      fec := { havePrev := false, prevActive := false, prevLen := 0, frameCount := 0 } } : State).complete 1 0 0)

/-- R146: `VAD.INIT` puts the VAD record at the values of the rule and changes nothing else. -/
def Obligations.VadInitRestoresTheVadRecordOnly : Prop :=
  ∀ s : State, exec .vadInit s = .next (({ s with
      vad := { ana0 := ⟨0, 0⟩, ana1 := ⟨0, 0⟩, ana2 := ⟨0, 0⟩, hpState := 0, counter := 15,
               nl := ⟨5000, 2500, 1600, 1200⟩, invNl := ⟨429496, 858993, 1342177, 1789569⟩,
               nrgRatioSmthQ8 := ⟨25600, 25600, 25600, 25600⟩, noiseBias := ⟨50, 25, 16, 12⟩,
               xnrgSubfr := ⟨0, 0, 0, 0⟩, qualityQ15 := ⟨0, 0, 0, 0⟩, saQ8 := 0, tiltQ15 := 0,
               active := false } } : State).complete 2 0 0)

/-! ### Primitives and the VAD -/

/-- R117: `sigmoid15` on its six segments each side of 0, breakpoint and slope; it is within [0, 32767], is 32767 from 192
on and 0 up to -192, and decreases between neighbours at exactly two places. -/
def Obligations.SigmoidSaturatesAndDecreasesExactlyTwice : Prop :=
  (∀ f : Int, 0 ≤ f → f < 32 →
    sigmoid15 specNum f = 16384 + 237 * f ∧ sigmoid15 specNum (32 + f) = 23955 + 153 * f ∧
    sigmoid15 specNum (64 + f) = 28861 + 73 * f ∧ sigmoid15 specNum (96 + f) = 31213 + 30 * f ∧
    sigmoid15 specNum (128 + f) = 32178 + 12 * f ∧ sigmoid15 specNum (160 + f) = 32548 + 7 * f ∧
    sigmoid15 specNum (-f) = 16384 - 237 * f ∧ sigmoid15 specNum (-(32 + f)) = 8812 - 153 * f ∧
    sigmoid15 specNum (-(64 + f)) = 3906 - 73 * f ∧ sigmoid15 specNum (-(96 + f)) = 1554 - 30 * f ∧
    sigmoid15 specNum (-(128 + f)) = 589 - 12 * f ∧ sigmoid15 specNum (-(160 + f)) = 219 - 7 * f) ∧
  ∀ x : Int,
    (0 ≤ sigmoid15 specNum x ∧ sigmoid15 specNum x ≤ 32767) ∧
    (192 ≤ x → sigmoid15 specNum x = 32767) ∧ (x ≤ -192 → sigmoid15 specNum x = 0) ∧
    (sigmoid15 specNum (x + 1) < sigmoid15 specNum x ↔ x = 159 ∨ x = -160)

/-- R131: the admission of `VAD.EVAL`, case by case in the rule's order. R130, R142: an admitted frame writes the VAD record,
the results and nothing else. -/
def Obligations.VadEvalAdmissionInOrder : Prop :=
  ∀ s : State,
    (s.io.arg0.toNat = 0 → exec .vadEval s = .next (s.complete 0x10 0 0)) ∧
    (s.io.arg0.toNat ≠ 0 → s.io.arg1.toNat ∉ [8, 12, 16, 24, 48] →
      exec .vadEval s = .next (s.takeError 0x10 (.badOperand 1))) ∧
    (s.io.arg0.toNat ≠ 0 → s.io.arg1.toNat ∈ [8, 12, 16, 24, 48] →
      (960 < s.io.arg0.toNat ∨ s.io.arg0.toNat % 8 ≠ 0) →
      exec .vadEval s = .next (s.takeError 0x10 (.badOperand 0))) ∧
    (s.io.arg0.toNat ≠ 0 → s.io.arg1.toNat ∈ [8, 12, 16, 24, 48] → s.io.arg0.toNat ≤ 960 →
      s.io.arg0.toNat % 8 = 0 → s.col.smpCount.toNat < s.io.arg0.toNat →
      exec .vadEval s = .next (s.complete 0x10 0 0)) ∧
    (s.io.arg0.toNat ≠ 0 → s.io.arg1.toNat ∈ [8, 12, 16, 24, 48] → s.io.arg0.toNat ≤ 960 →
      s.io.arg0.toNat % 8 = 0 → s.io.arg0.toNat ≤ s.col.smpCount.toNat →
      ∃ v, v = vadFrame specNum s.vad s.io.arg1.toNat (s.smpValues s.io.arg0.toNat) ∧
        exec .vadEval s =
          .next (({ s with vad := v } : State).complete 0x10 (v.saQ8 + if v.active then 256 else 0) v.tiltQ15))

/-- R132 to R143: what a frame does to the VAD record, written out. First the noise levels of the updated inverse levels,
the counter, the bias table, the activity and the tilt as they stand after any frame; then every rule in its order, each
intermediate value pinned by its own equation: conversion (R132), the splitter on a pair of samples (R134), the three
splits (R133) and the differentiator (R135), the energies with carry and half weight (R136), the noise update (R137), the
ratio and SNR (R138), the tilt (R139), the activity (R140 to R142), the smoothed ratios and qualities (R143), with the
multiply of R115 and the logarithm and root of R118 and R119. -/
def Obligations.VadFrameUpdatesNoiseCounterAndActivity : Prop :=
  ∀ (v : VadRegs) (fs : Nat) (xs : List Int) (v' : VadRegs), v' = vadFrame specNum v fs xs →
    (v'.nl.b0.toInt = min (Int.tdiv (2 ^ 31 - 1) v'.invNl.b0.toInt) 0xFFFFFF ∧
    v'.nl.b1.toInt = min (Int.tdiv (2 ^ 31 - 1) v'.invNl.b1.toInt) 0xFFFFFF ∧
    v'.nl.b2.toInt = min (Int.tdiv (2 ^ 31 - 1) v'.invNl.b2.toInt) 0xFFFFFF ∧
    v'.nl.b3.toInt = min (Int.tdiv (2 ^ 31 - 1) v'.invNl.b3.toInt) 0xFFFFFF ∧
    v'.counter = (if v.counter.toInt < 1000 then v.counter + 1 else v.counter) ∧
    v'.noiseBias = v.noiseBias ∧
    0 ≤ v'.saQ8.toInt ∧ v'.saQ8.toInt ≤ 255 ∧ (v'.active = true ↔ 13 ≤ v'.saQ8.toInt) ∧
    v'.tiltQ15.toInt % 2 = 0 ∧ -32768 ≤ v'.tiltQ15.toInt ∧ v'.tiltQ15.toInt ≤ 32766) ∧
    ∃ (wrap sat : Int → Int) (mul : Int → Int → Int) (frac log root : Int → Int) (ss : List Int → Nat → Int)
      (o4 o2 o1 : SplitOut) (h : List Int) (band : Fin 4 → List Int)
      (x nrg inv coef sp ratio snr weight term : Fin 4 → Int) (minC tilt raw e sa sc : Int),
      (∀ z, wrap z = (z + 2 ^ 31) % 2 ^ 32 - 2 ^ 31) ∧
      (∀ z, sat z = min (max z (-32768)) 32767) ∧
      (∀ a b, mul a b = wrap ((a * b + 32768) / 65536)) ∧
      (∀ z, 0 < z → frac z = z * 128 / 2 ^ z.toNat.log2 % 128) ∧
      (∀ z, z < 2 ^ 32 → log z = if z ≤ 0 then 0
        else frac z + frac z * (128 - frac z) * 179 / 65536 + 128 * (z.toNat.log2 : Int)) ∧
      (∀ z, z ≤ 0 → root z = 0) ∧
      (∀ (z y : Int) (lz : Nat), 0 < z → lz = 31 - z.toNat.log2 →
        y = (if lz % 2 = 1 then 32768 else 46214) / 2 ^ (lz / 2) → root z = y + y * (213 * frac z) / 65536) ∧
      (∀ b k, ss b k =
        ((List.range (b.length / 4)).map (fun i => (b.getD (k * (b.length / 4) + i) 0 / 8) ^ 2)).sum) ∧
      (∀ s0 s1, split specNum [] s0 s1 = ⟨[], [], s0, s1⟩) ∧
      (∀ (a b : Int) (rest : List Int) (s0 s1 y0 x0 p1 y1 x1 p2 : Int) (r : SplitOut),
        y0 = wrap (a * 1024 - s0) → x0 = wrap (y0 + mul y0 (-24290)) → p1 = wrap (s0 + x0) →
        y1 = wrap (b * 1024 - s1) → x1 = mul y1 10788 → p2 = wrap (s1 + x1) →
        r = split specNum rest (wrap (a * 1024 + x0)) (wrap (b * 1024 + x1)) →
        split specNum (a :: b :: rest) s0 s1 =
          ⟨sat ((wrap (p2 + p1) / 1024 + 1) / 2) :: r.lo, sat ((wrap (p2 - p1) / 1024 + 1) / 2) :: r.hi, r.s0, r.s1⟩) ∧
      o4 = split specNum (xs.map (fun a => sat ((a + 128) / 256))) v.ana0.s0.toInt v.ana0.s1.toInt ∧
      o2 = split specNum o4.lo v.ana1.s0.toInt v.ana1.s1.toInt ∧
      o1 = split specNum o2.lo v.ana2.s0.toInt v.ana2.s1.toInt ∧
      v'.ana0 = ⟨BitVec.ofInt 32 o4.s0, BitVec.ofInt 32 o4.s1⟩ ∧
      v'.ana1 = ⟨BitVec.ofInt 32 o2.s0, BitVec.ofInt 32 o2.s1⟩ ∧
      v'.ana2 = ⟨BitVec.ofInt 32 o1.s0, BitVec.ofInt 32 o1.s1⟩ ∧
      h = o1.lo.map (fun a => a / 2) ∧ v'.hpState = BitVec.ofInt 16 (h.getLastD v.hpState.toInt) ∧
      band 0 = List.zipWith (fun a b => a - b) h (v.hpState.toInt :: h) ∧
      band 1 = o1.hi ∧ band 2 = o2.hi ∧ band 3 = o4.hi ∧
      (∀ k, x k = min (min (min (min ((v.xnrgSubfr.get k).toInt + ss (band k) 0) (2 ^ 31 - 1) + ss (band k) 1)
        (2 ^ 31 - 1) + ss (band k) 2) (2 ^ 31 - 1) + ss (band k) 3 / 2) (2 ^ 31 - 1)) ∧
      (∀ k, v'.xnrgSubfr.get k = BitVec.ofInt 32 (ss (band k) 3)) ∧
      minC = (if v.counter.toInt < 1000 then Int.tdiv 32767 (v.counter.toInt / 16 + 1) else 0) ∧
      (∀ k, nrg k = min (x k + (v.noiseBias.get k).toInt) (2 ^ 31 - 1)) ∧
      (∀ k, inv k = Int.tdiv (2 ^ 31 - 1) (nrg k)) ∧
      (∀ k, coef k = max (if (v.nl.get k).toInt * 8 < nrg k then 128
        else if nrg k < (v.nl.get k).toInt then 1024
        else mul (mul (inv k) (v.nl.get k).toInt) 2048) minC) ∧
      (∀ k, (v'.invNl.get k).toInt =
        wrap ((v.invNl.get k).toInt + mul (wrap (inv k - (v.invNl.get k).toInt)) (coef k))) ∧
      (∀ k, sp k = x k - (v'.nl.get k).toInt) ∧
      (∀ k, ratio k = if sp k ≤ 0 then 256
        else if x k < 2 ^ 23 then Int.tdiv (x k * 256) ((v'.nl.get k).toInt + 1)
        else Int.tdiv (x k) ((v'.nl.get k).toInt / 256 + 1)) ∧
      (∀ k, snr k = log (ratio k) - 1024) ∧
      weight 0 = 30000 ∧ weight 1 = 6000 ∧ weight 2 = -12000 ∧ weight 3 = -12000 ∧
      (∀ k, term k = if sp k ≤ 0 then 0
        else mul (weight k) (if sp k < 2 ^ 20 then mul (root (sp k) * 64) (snr k) else snr k)) ∧
      tilt = wrap (wrap (wrap (wrap (term 0) + term 1) + term 2) + term 3) ∧
      v'.tiltQ15.toInt = 2 * (sigmoid15 specNum tilt - 16384) ∧
      raw = sigmoid15 specNum (mul 45000 (3 * root (Int.tdiv
        ((if sp 0 ≤ 0 then 0 else snr 0 * snr 0) + (if sp 1 ≤ 0 then 0 else snr 1 * snr 1)
          + (if sp 2 ≤ 0 then 0 else snr 2 * snr 2) + (if sp 3 ≤ 0 then 0 else snr 3 * snr 3)) 4)) - 128) ∧
      e = wrap (wrap (wrap (wrap (sp 0 / 16) + 2 * (sp 1 / 16)) + 3 * (sp 2 / 16)) + 4 * (sp 3 / 16))
        / (if xs.length = 20 * fs then 2 else 1) ∧
      sa = (if e ≤ 0 then raw / 2 else if e < 16384 then mul (32768 + root (e * 65536)) raw else raw) ∧
      v'.saQ8.toInt = min (sa / 128) 255 ∧
      sc = mul 4096 (mul sa sa) / (if xs.length = 10 * fs then 2 else 1) ∧
      (∀ k, (v'.nrgRatioSmthQ8.get k).toInt =
        wrap ((v.nrgRatioSmthQ8.get k).toInt + mul (ratio k - (v.nrgRatioSmthQ8.get k).toInt) sc)) ∧
      (∀ k, (v'.qualityQ15.get k).toInt =
        sigmoid15 specNum ((3 * (log (v'.nrgRatioSmthQ8.get k).toInt - 1024) - 2048) / 16))

/-- R147: the ranges of the VAD record are kept by every frame of at most 960 samples, under both multiplies. -/
def Obligations.VadFrameKeepsTheRangesUnderBothMultiplies : Prop :=
  ∀ (P : NumCfg) (v : VadRegs) (fs : Nat) (xs : List Int), P = specNum ∨ P = floorNum →
    xs.length ≤ 960 → VadOk v → VadOk (vadFrame P v fs xs)

/-- R145, for a frame of any length at any rate: the all-zero frame from the fresh VAD state. -/
def Obligations.AllZeroFrameFromTheFreshState : Prop :=
  ∀ n fs : Nat, vadFrame specNum resetVad fs (List.replicate n 0) = { resetVad with
    counter := 16
    nl := ⟨99, 49, 31, 23⟩
    invNl := ⟨21688935, 43377871, 67777924, 90370566⟩
    qualityQ15 := ⟨23731, 23731, 23731, 23731⟩
    saQ8 := 2 }

/-! ### DTX -/

/-- R161: the admission of `DTX.DECIDE`, in the rule's order. -/
def Obligations.DtxDecideAdmissionInOrder : Prop :=
  ∀ s : State,
    (s.io.arg1.toNat ∉ [8, 12, 16, 24, 48] → exec .dtxDecide s = .next (s.takeError 0x20 (.badOperand 1))) ∧
    (s.io.arg1.toNat ∈ [8, 12, 16, 24, 48] →
      (s.io.arg0.toNat = 0 ∨ 960 < s.io.arg0.toNat ∨ s.io.arg0.toNat % 8 ≠ 0) →
      exec .dtxDecide s = .next (s.takeError 0x20 (.badOperand 0))) ∧
    (s.io.arg1.toNat ∈ [8, 12, 16, 24, 48] → s.io.arg0.toNat ≠ 0 → s.io.arg0.toNat ≤ 960 →
      s.io.arg0.toNat % 8 = 0 → s.col.smpCount.toNat < s.io.arg0.toNat →
      exec .dtxDecide s = .next (s.takeError 0x20 (.badOperand 2)))

/-- R162 to R171: an admitted `DTX.DECIDE` completes, with the silence verdict, the energy, the peak, the classification,
the state machine (enabled or disabled) and the comfort-noise schedule as the rules compute them, the VAD record after
its frame, and nothing else changed. -/
def Obligations.DtxDecideRunsTheStateMachine : Prop :=
  ∀ (s : State) (n fs d e peak : Nat) (xs : List Int) (v : VadRegs) (silence active : Bool),
    n = s.io.arg0.toNat → fs = s.io.arg1.toNat → fs ∈ [8, 12, 16, 24, 48] → n ≠ 0 → n ≤ 960 → n % 8 = 0 →
    n ≤ s.col.smpCount.toNat → xs = s.smpValues n → v = vadFrame specNum s.vad fs xs → d = 2 * n / fs →
    (silence = true ↔ ∀ x ∈ xs, 2 * x.natAbs < 2 ^ (24 - s.cfg.lsbDepth.toNat)) →
    e = (xs.map (fun x => x.natAbs * x.natAbs)).sum / n →
    peak = (if silence = false ∧ ¬(s.col.anaValid = true ∧ s.col.anaProbQ15.toNat < 3277)
      then max (s.dtx.peak.toNat * 32735 / 32768) e else s.dtx.peak.toNat) →
    (active = true ↔ silence = false ∧
      ((s.col.anaValid = true ∧ (3277 ≤ s.col.anaProbQ15.toNat ∨ peak * 256 < 80955 * e)) ∨
        (s.col.anaValid = false ∧ peak * 384 < 80955 * e))) →
    ∃ (suppress emitCn : Bool) (dur newPeak elapsed : Nat),
      (s.cfg.flags.dtxEn = false → suppress = false ∧ dur = 0 ∧ newPeak = peak) ∧
      (s.cfg.flags.dtxEn = true → active = true →
        suppress = false ∧ dur = 0 ∧ newPeak = if s.dtx.stat.inDtx then 0 else peak) ∧
      (s.cfg.flags.dtxEn = true → active = false → newPeak = peak ∧
        (s.dtx.durQ1.toNat + d ≤ 400 → suppress = false ∧ dur = s.dtx.durQ1.toNat + d) ∧
        (400 < s.dtx.durQ1.toNat + d → s.dtx.durQ1.toNat + d ≤ 1200 →
          suppress = true ∧ dur = s.dtx.durQ1.toNat + d) ∧
        (1200 < s.dtx.durQ1.toNat + d → suppress = false ∧ dur = 400)) ∧
      (suppress = false → emitCn = false ∧ elapsed = 0) ∧
      (suppress = true → s.cfg.cnIntervalQ1.toNat ≤ s.dtx.cnElapsedQ1.toNat + d → emitCn = true ∧ elapsed = 0) ∧
      (suppress = true → s.dtx.cnElapsedQ1.toNat + d < s.cfg.cnIntervalQ1.toNat →
        emitCn = false ∧ elapsed = s.dtx.cnElapsedQ1.toNat + d) ∧
      exec .dtxDecide s = .next (({ s with
        vad := v
        dtx := { durQ1 := BitVec.ofNat 32 dur, stat := ⟨suppress, suppress, emitCn, active, silence, true⟩,
                 peak := BitVec.ofNat 64 newPeak, frameDurQ1 := BitVec.ofNat 32 d,
                 cnElapsedQ1 := BitVec.ofNat 32 elapsed, energy := BitVec.ofNat 64 e } } : State).complete 0x20
        (BitVec.ofNat 32 (suppress.toNat + 2 * emitCn.toNat + 4 * active.toNat + 8 * silence.toNat
          + 16 * v.active.toNat)) v.saQ8)

/-- R173 (1): a decision to suppress has more than 200 ms of accumulated silence, and at most 600 ms, behind it; with DTX
disabled none is made. -/
def Obligations.DtxNeverSuppressesBeforeTheThreshold : Prop :=
  ∀ s t : State, exec .dtxDecide s = .next t → t.io.status.err = 0 →
    (t.dtx.stat.inDtx = true → s.cfg.flags.dtxEn = true ∧ 400 < t.dtx.durQ1.toNat ∧ t.dtx.durQ1.toNat ≤ 1200) ∧
    (t.dtx.stat.inDtx = t.dtx.stat.lastSuppress) ∧
    (t.dtx.stat.lastEmitCn = true → t.dtx.stat.lastSuppress = true) ∧ t.dtx.stat.decisionValid = true

/-- R173 (2) and (3): CONTINUOUS SILENCE, over runs of the machine. From an empty duration and ACTIVE, `k` decisions on an
all-zero frame of duration `d`, as long as `k d` is at most 600 ms, leave the duration `k d`, suppressed exactly when it
exceeds 200 ms; the first decision past 600 ms is not suppressed and sets the duration to the threshold. -/
def Obligations.ContinuousSilenceEntersAndLeavesSuppression : Prop :=
  ∀ (s : State) (k n fs d : Nat),
    s.cfg.flags.dtxEn = true → s.dtx.durQ1 = 0 → s.dtx.stat.inDtx = false →
    s.io.arg0.toNat = n → s.io.arg1.toNat = fs → fs ∈ [8, 12, 16, 24, 48] → n ≠ 0 → n ≤ 960 → n % 8 = 0 →
    n ≤ s.col.smpCount.toNat → (∀ i, i < n → s.sampleAt (0x8000 + 4 * i) = 0) → d = 2 * n / fs →
    s.pending = List.replicate (k + 1) (.write 0x040 4 0x20) → k * d ≤ 1200 →
    (∃ t, Sys2Proof.core.run k s = .next t ∧ t.dtx.durQ1.toNat = k * d ∧
      (t.dtx.stat.inDtx = true ↔ 400 < k * d)) ∧
    (1200 < (k + 1) * d → ∃ t, Sys2Proof.core.run (k + 1) s = .next t ∧ t.dtx.durQ1.toNat = 400 ∧
      t.dtx.stat.inDtx = false)

/-! ### FEC -/

/-- R181: `FEC.QUERY` answers the three conditions and the remembered activity, and writes no state. -/
def Obligations.FecQueryAnswersTheThreeConditions : Prop :=
  ∀ s : State, exec .fecQuery s = .next (s.complete 0x30
    (if s.cfg.flags.fecEn = true ∧ s.fec.havePrev = true ∧ 1 ≤ s.cfg.lossPct.toNat then 1 else 0)
    (if s.fec.prevActive = true then 1 else 0))

/-- R183: `FEC.RATE` is three fifths of the primary rate, rounded down, at least 6000; it writes no state. -/
def Obligations.FecRateIsThreeFifthsWithAFloor : Prop :=
  ∀ s : State, ∃ r : Word, exec .fecRate s = .next (s.complete 0x32 r 0) ∧
    r.toNat = max (3 * s.io.arg0.toNat / 5) 6000

/-- R182: `FEC.RECORD` with its checks passed. With FEC enabled `FECBUF[i]` is `SMP[i]` for `i < len` and no byte outside
those words changes; with FEC disabled no byte changes and the retained frame is dropped. -/
def Obligations.FecRecordRetainsTheFrame : Prop :=
  ∀ (s : State) (wasActive : Bool) (len : Nat), len = s.io.arg0.toNat → len ≠ 0 → len ≤ 5760 →
    len ≤ s.col.smpCount.toNat → s.dtx.stat.decisionValid = true → s.dtx.stat.lastSuppress = false →
    ∃ t, exec (.fecRecord wasActive) s = .next t ∧
      t = ({ s with
        mem := t.mem
        fec := { havePrev := s.cfg.flags.fecEn, prevActive := wasActive,
                 prevLen := if s.cfg.flags.fecEn then s.io.arg0 else 0, frameCount := s.fec.frameCount + 1 }
        dtx := { s.dtx with stat := { s.dtx.stat with decisionValid := false } } } : State).complete
          (if wasActive then 0x131 else 0x31)
          (BitVec.ofNat 32 (s.cfg.flags.fecEn.toNat + 2 * wasActive.toNat)) (s.fec.frameCount + 1) ∧
      (s.cfg.flags.fecEn = true → ∀ i, i < len → t.sampleAt (0x10000 + 4 * i) = s.sampleAt (0x8000 + 4 * i)) ∧
      (s.cfg.flags.fecEn = true → ∀ a, (a < 0x10000 ∨ 0x10000 + 4 * len ≤ a) → t.byteAt a = s.byteAt a) ∧
      (s.cfg.flags.fecEn = false → ∀ a, t.byteAt a = s.byteAt a)

/-- R182, R259: the two checks of `FEC.RECORD`, the operand first. -/
def Obligations.FecRecordChecksOperandThenSequence : Prop :=
  ∀ (s : State) (wasActive : Bool) (w : Word), w = (if wasActive then 0x131 else 0x31) →
    ((s.io.arg0.toNat = 0 ∨ 5760 < s.io.arg0.toNat ∨ s.col.smpCount.toNat < s.io.arg0.toNat) →
      exec (.fecRecord wasActive) s = .next (s.takeError w (.badOperand 0))) ∧
    (s.io.arg0.toNat ≠ 0 → s.io.arg0.toNat ≤ 5760 → s.io.arg0.toNat ≤ s.col.smpCount.toNat →
      (s.dtx.stat.decisionValid = false ∨ s.dtx.stat.lastSuppress = true) →
      exec (.fecRecord wasActive) s = .next (s.takeError w (.sequenceError (hostRead s 0x1A4))))

/-! ### Packet wire format -/

/-- R89: the bytes of the length field; R90: how any bytes decode; and what was encoded decodes to itself, in one byte up
to 251 and two above, whatever follows. -/
def Obligations.LengthFieldRoundTrip : Prop :=
  (∀ (len : Nat) (rest : List Byte), len ≤ 1275 →
    decLen (encLen len ++ rest) = some (len, (encLen len).length) ∧
    (encLen len).length = if len ≤ 251 then 1 else 2) ∧
  (∀ len : Nat, (len ≤ 251 → encLen len = [BitVec.ofNat 8 len]) ∧
    (252 ≤ len → len ≤ 1275 → ∃ b0 b1 : Byte, encLen len = [b0, b1] ∧ b0.toNat = 252 + len % 4 ∧
      4 * b1.toNat + b0.toNat = len)) ∧
  decLen [] = none ∧
  (∀ (b0 : Byte) (rest : List Byte), b0.toNat ≤ 251 → decLen (b0 :: rest) = some (b0.toNat, 1)) ∧
  (∀ b0 : Byte, 251 < b0.toNat → decLen [b0] = none) ∧
  (∀ (b0 b1 : Byte) (rest : List Byte), 251 < b0.toNat →
    decLen (b0 :: b1 :: rest) = some (4 * b1.toNat + b0.toNat, 2))

/-- R92: for every overhead `T >= 1` the padding-length field decodes to `P` data bytes with `(k + 1) + P = T`; the bytes
of that field, `k` of 255 and a final one; how any bytes decode; R93: the data bytes are zeros. -/
def Obligations.PaddingFieldReachesTheOverhead : Prop :=
  (∀ (t : Nat) (rest : List Byte), 1 ≤ t →
    ∃ p u, readPadLen (padField t ++ rest) = some (p, u) ∧ u = (padField t).length ∧ p = (padData t).length ∧
      u + p = t ∧ u = (t - 1) / 255 + 1) ∧
  (∀ t k f : Nat, 1 ≤ t → k = (t - 1) / 255 → f = t - 1 - 255 * k →
    padField t = List.replicate k 255 ++ [BitVec.ofNat 8 f] ∧ f ≤ 254 ∧ padData t = List.replicate (254 * k + f) 0) ∧
  padField 0 = [] ∧ padData 0 = [] ∧
  readPadLen [] = none ∧
  (∀ (b : Byte) (rest : List Byte), b.toNat ≠ 255 → readPadLen (b :: rest) = some (b.toNat, 1)) ∧
  (∀ (b : Byte) (rest : List Byte), b.toNat = 255 →
    (readPadLen rest = none → readPadLen (b :: rest) = none) ∧
    (∀ p u, readPadLen rest = some (p, u) → readPadLen (b :: rest) = some (254 + p, u + 1)))

/-- R202: every well-formed packet has an exact construction at every larger size. With it what that speaks of, in the
rules' own terms: the packets that parse and what they parse to, frame code by frame code (R91, R94, R197), the stored
lengths in a row, where the frames lie; and the base size and the bytes of the re-framed packet (R198, R199, R200). -/
def Obligations.ReframingReachesEveryLargerSizeExactly : Prop :=
  (∀ (p : List Byte) (r : Parsed) (t : Nat), parsePacket p = some r → p.length < t →
    baseSize r.lens ≤ p.length + 1 ∧ (reframe r p t).length = t) ∧
  parsePacket [] = none ∧
  (∀ (p rest : List Byte) (toc : Byte) (n : Nat), p = toc :: rest → n = p.length →
    ((toc.extractLsb' 0 2).toNat = 0 →
      parsePacket p = if n - 1 ≤ 1275 then some ⟨toc, [n - 1], 1⟩ else none) ∧
    ((toc.extractLsb' 0 2).toNat = 1 →
      parsePacket p = if (n - 1) % 2 = 0 ∧ (n - 1) / 2 ≤ 1275 then some ⟨toc, [(n - 1) / 2, (n - 1) / 2], 1⟩ else none) ∧
    ((toc.extractLsb' 0 2).toNat = 2 →
      (decLen rest = none → parsePacket p = none) ∧
      (∀ l0 u, decLen rest = some (l0, u) → parsePacket p =
        if 1 + u + l0 ≤ n ∧ n - 1 - u - l0 ≤ 1275 then some ⟨toc, [l0, n - 1 - u - l0], 1 + u⟩ else none)) ∧
    ((toc.extractLsb' 0 2).toNat = 3 →
      (rest = [] → parsePacket p = none) ∧
      (∀ (cb : Byte) (body : List Byte) (m : Nat), rest = cb :: body → m = (cb.extractLsb' 0 6).toNat →
        (m = 0 → parsePacket p = none) ∧
        (cb.getLsbD 6 = true → readPadLen body = none → parsePacket p = none) ∧
        (∀ pad i : Nat, m ≠ 0 →
          ((cb.getLsbD 6 = false ∧ pad = 0 ∧ i = 2) ∨
            (cb.getLsbD 6 = true ∧ ∃ u, readPadLen body = some (pad, u) ∧ i = 2 + u)) →
          (n < pad + i → parsePacket p = none) ∧
          (∀ stop, stop + pad = n → i ≤ stop →
            (cb.getLsbD 7 = false → parsePacket p =
              if (stop - i) % m = 0 ∧ (stop - i) / m ≤ 1275 then some ⟨toc, List.replicate m ((stop - i) / m), i⟩
              else none) ∧
            (cb.getLsbD 7 = true →
              (readLens (m - 1) ((p.take stop).drop i) = none → parsePacket p = none) ∧
              (∀ lens used, readLens (m - 1) ((p.take stop).drop i) = some (lens, used) → parsePacket p =
                if i + used + lens.sum ≤ stop ∧ stop - (i + used + lens.sum) ≤ 1275 then
                  some ⟨toc, lens ++ [stop - (i + used + lens.sum)], i + used⟩
                else none))))))) ∧
  (∀ (k : Nat) (bs : List Byte), readLens 0 bs = some ([], 0) ∧ (decLen bs = none → readLens (k + 1) bs = none) ∧
    (∀ l u, decLen bs = some (l, u) →
      (readLens k (bs.drop u) = none → readLens (k + 1) bs = none) ∧
      (∀ lens used, readLens k (bs.drop u) = some (lens, used) → readLens (k + 1) bs = some (l :: lens, u + used)))) ∧
  (∀ (r : Parsed) (p : List Byte), (r.frames p).length = r.lens.length ∧
    ∀ j, j < r.lens.length →
      (r.frames p).getD j [] = (p.drop (r.first + (r.lens.take j).sum)).take (r.lens.getD j 0)) ∧
  (∀ (r : Parsed) (p : List Byte) (t v base extra : Nat),
    v = (if ∀ l ∈ r.lens, l = r.lens.headD 0 then 0 else 1) →
    base = 2 + r.lens.sum + (if v = 1 then (r.lens.dropLast.map (fun l => if l ≤ 251 then 1 else 2)).sum else 0) →
    extra = t - base →
    baseSize r.lens = base ∧
    reframe r p t = ((r.toc &&& 0xFC) ||| 3) ::
      BitVec.ofNat 8 (128 * v + 64 * (if 1 ≤ extra then 1 else 0) + r.lens.length) ::
      (padField extra ++ (if v = 1 then r.lens.dropLast.flatMap encLen else []) ++ (r.frames p).flatten ++ padData extra))

/-- R200: PADDING PRESERVES THE FRAMES. The re-framed packet parses, to frame code 3 with the same config and stereo bits
and to the same frames in the same order. -/
def Obligations.ReframedPacketParsesToTheSameFrames : Prop :=
  ∀ (p : List Byte) (r : Parsed) (t : Nat), parsePacket p = some r → p.length < t →
    ∃ r', parsePacket (reframe r p t) = some r' ∧ r'.toc = r.toc ||| 3 ∧
      r'.frames (reframe r p t) = r.frames p

/-- R216 against R197: A BUILT PACKET PARSES TO ITS UNITS, one to three of at most 1275 bytes. -/
def Obligations.BuiltPacketParsesToItsUnits : Prop :=
  ∀ (base : Byte) (units : List (List Byte)), base.extractLsb' 0 2 = 0 → 1 ≤ units.length → units.length ≤ 3 →
    (∀ u ∈ units, u.length ≤ 1275) →
    ∃ r, parsePacket (builtPacket base units) = some r ∧ r.frames (builtPacket base units) = units ∧
      r.toc = (if units.length = 1 then base else base ||| 3)

/-! ### Bitrate controller -/

/-- R190: `BRC.TARGET` is `floor(b d / 16000)`, saturated; it writes no state. -/
def Obligations.BrcTargetIsTheExactQuotient : Prop :=
  ∀ s : State, ∃ r : Word, exec .brcTarget s = .next (s.complete 0x40 r 0) ∧
    r.toNat = min (s.io.arg0.toNat * s.io.arg1.toNat / 16000) (2 ^ 32 - 1)

/-- R192: the errors of `BRC.CONFORM` before any padding, in the rule's order. -/
def Obligations.BrcConformErrorsInOrder : Prop :=
  ∀ s : State,
    (s.col.subencStatus ≠ 0 →
      exec .brcConform s = .next (s.takeError 0x41 (.subEncoderFailure s.col.subencStatus))) ∧
    (s.col.subencStatus = 0 → 4096 < s.io.arg0.toNat → exec .brcConform s = .next (s.takeError 0x41 (.badOperand 0))) ∧
    (s.col.subencStatus = 0 → s.io.arg0.toNat ≤ 4096 → s.col.pktLen = 0 →
      exec .brcConform s = .next (s.takeError 0x41 (.badOperand 1))) ∧
    (s.col.subencStatus = 0 → s.io.arg0.toNat ≤ 4096 → s.col.pktLen ≠ 0 → s.cfg.rateMode = .cbr →
      s.io.arg0.toNat < s.col.pktLen.toNat →
      exec .brcConform s = .next (s.takeError 0x41 (.rateViolation s.col.pktLen)))

/-- R192, R193, R195: when nothing is to be padded `BRC.CONFORM` passes the packet through, unmodified: any VBR packet, a
CBR packet of the target's size, a CVBR packet not below 85 percent, flagged when above 115 percent; or raises
`BufferTooSmall` when the packet itself exceeds the buffer. -/
def Obligations.BrcConformPassesThrough : Prop :=
  ∀ (s : State) (n t : Nat), n = s.col.pktLen.toNat → t = s.io.arg0.toNat → s.col.subencStatus = 0 → t ≤ 4096 → n ≠ 0 →
    (s.cfg.rateMode = .vbr ∨ (s.cfg.rateMode = .cbr ∧ n = t) ∨ (s.cfg.rateMode = .cvbr ∧ 17 * t / 20 ≤ n)) →
    (n ≤ s.col.outCap.toNat → exec .brcConform s = .next (s.complete 0x41 s.col.pktLen
      (if s.cfg.rateMode = .cvbr ∧ (23 * t + 19) / 20 < n then 4 else 0))) ∧
    (s.col.outCap.toNat < n →
      exec .brcConform s = .next (s.takeError 0x41 (.bufferTooSmall s.col.pktLen)))

/-- R192 to R194: a packet shorter than the goal (the target under CBR, `floor(0.85 t)` under CVBR) is re-framed to
exactly the goal; if malformed it is a `RateViolation` under CBR and left short and flagged under CVBR; and a goal above
`OUT_CAP` is `BufferTooSmall`. Outside the goal's bytes nothing in the buffers changes. -/
def Obligations.BrcConformPadsToTheGoal : Prop :=
  ∀ (s : State) (n t goal : Nat), n = s.col.pktLen.toNat → t = s.io.arg0.toNat → s.col.subencStatus = 0 → t ≤ 4096 →
    n ≠ 0 → ((s.cfg.rateMode = .cbr ∧ goal = t) ∨ (s.cfg.rateMode = .cvbr ∧ goal = 17 * t / 20)) → n < goal →
    (s.col.outCap.toNat < goal →
      exec .brcConform s = .next (s.takeError 0x41 (.bufferTooSmall (BitVec.ofNat 32 goal)))) ∧
    (goal ≤ s.col.outCap.toNat → parsePacket (s.pktBytes n) = none → s.cfg.rateMode = .cbr →
      exec .brcConform s = .next (s.takeError 0x41 (.rateViolation s.col.pktLen))) ∧
    (goal ≤ s.col.outCap.toNat → parsePacket (s.pktBytes n) = none → s.cfg.rateMode = .cvbr →
      exec .brcConform s = .next (s.complete 0x41 s.col.pktLen 10)) ∧
    (∀ r, goal ≤ s.col.outCap.toNat → parsePacket (s.pktBytes n) = some r →
      ∃ u, exec .brcConform s = .next u ∧
        u = ({ s with mem := u.mem, col := { s.col with pktLen := BitVec.ofNat 32 goal } } : State).complete 0x41
          (BitVec.ofNat 32 goal) 1 ∧
        u.pktBytes goal = reframe r (s.pktBytes n) goal ∧
        (∀ a, (a < 0x1000 ∨ 0x1000 + goal ≤ a) → u.byteAt a = s.byteAt a))

/-- R194: after a successful `BRC.CONFORM` in CBR mode the packet length is exactly the target; R193: in CVBR mode it is
at least `floor(0.85 t)` unless flagged; in no mode is the packet shortened (R201). -/
def Obligations.SuccessfulConformMeetsTheRateMode : Prop :=
  ∀ s t : State, exec .brcConform s = .next t → t.io.status.err = 0 →
    (s.cfg.rateMode = .cbr → t.col.pktLen = s.io.arg0) ∧
    (s.cfg.rateMode = .cvbr → 17 * s.io.arg0.toNat / 20 ≤ t.col.pktLen.toNat ∨ t.io.res1 = 10) ∧
    (s.cfg.rateMode = .vbr → t.col.pktLen = s.col.pktLen) ∧
    s.col.pktLen.toNat ≤ t.col.pktLen.toNat ∧ t.col.pktLen.toNat ≤ s.col.outCap.toNat ∧ t.io.res0 = t.col.pktLen

/-- R196: `PKT.PAD`, case by case in the rule's order. -/
def Obligations.PktPadCaseByCase : Prop :=
  ∀ (s : State) (n t : Nat), n = s.col.pktLen.toNat → t = s.io.arg0.toNat →
    (4096 < t → exec .pktPad s = .next (s.takeError 0x42 (.badOperand 0))) ∧
    (t ≤ 4096 → n = 0 → exec .pktPad s = .next (s.takeError 0x42 (.badOperand 1))) ∧
    (t ≤ 4096 → n ≠ 0 → t ≤ n → exec .pktPad s = .next (s.complete 0x42 s.col.pktLen 0)) ∧
    (t ≤ 4096 → n ≠ 0 → n < t → s.col.outCap.toNat < t →
      exec .pktPad s = .next (s.takeError 0x42 (.bufferTooSmall s.io.arg0))) ∧
    (t ≤ 4096 → n ≠ 0 → n < t → t ≤ s.col.outCap.toNat → parsePacket (s.pktBytes n) = none →
      exec .pktPad s = .next (s.complete 0x42 s.col.pktLen 2)) ∧
    (∀ r, t ≤ 4096 → n ≠ 0 → n < t → t ≤ s.col.outCap.toNat → parsePacket (s.pktBytes n) = some r →
      ∃ u, exec .pktPad s = .next u ∧
        u = ({ s with mem := u.mem, col := { s.col with pktLen := s.io.arg0 } } : State).complete 0x42 s.io.arg0 1 ∧
        u.pktBytes t = reframe r (s.pktBytes n) t ∧
        (∀ a, (a < 0x1000 ∨ 0x1000 + t ≤ a) → u.byteAt a = s.byteAt a))

/-- R201: repeating a successful `PKT.PAD` changes neither the packet nor its length. -/
def Obligations.PktPadIsIdempotent : Prop :=
  ∀ s t u : State, exec .pktPad s = .next t → t.io.status.err = 0 → exec .pktPad t = .next u →
    u.io.status.err = 0 ∧ u.col = t.col ∧ u.mem = t.mem ∧ u.io.res0 = t.io.res0

/-! ### Framer -/

/-- R96, R214: `cfgIndex` is the 32-entry table, row by row; R214: the units and the bandwidths each coder has; R211: the
frame sizes each mode accepts. No others. And the codes these carry in registers and operands: modes (R26), bandwidths
(R27), rate modes (R30), coders (R210), each read back from its code alone. -/
def Obligations.CfgIndexIsTheConfigurationTable : Prop :=
  ([480, 960, 1920, 2880].map (cfgIndex .speech .narrow) = [0, 1, 2, 3]) ∧
  ([480, 960, 1920, 2880].map (cfgIndex .speech .medium) = [4, 5, 6, 7]) ∧
  ([480, 960, 1920, 2880].map (cfgIndex .speech .wide) = [8, 9, 10, 11]) ∧
  ([480, 960].map (cfgIndex .hybrid .superWide) = [12, 13]) ∧
  ([480, 960].map (cfgIndex .hybrid .full) = [14, 15]) ∧
  ([120, 240, 480, 960].map (cfgIndex .transform .narrow) = [16, 17, 18, 19]) ∧
  ([120, 240, 480, 960].map (cfgIndex .transform .wide) = [20, 21, 22, 23]) ∧
  ([120, 240, 480, 960].map (cfgIndex .transform .superWide) = [24, 25, 26, 27]) ∧
  ([120, 240, 480, 960].map (cfgIndex .transform .full) = [28, 29, 30, 31]) ∧
  (∀ n : Nat,
    (n ∈ unitSet .speech ↔ n = 480 ∨ n = 960 ∨ n = 1920 ∨ n = 2880) ∧
    (n ∈ unitSet .hybrid ↔ n = 480 ∨ n = 960) ∧
    (n ∈ unitSet .transform ↔ n = 120 ∨ n = 240 ∨ n = 480 ∨ n = 960)) ∧
  (∀ bw : Bandwidth,
    (bw ∈ bwSet .speech ↔ bw = .narrow ∨ bw = .medium ∨ bw = .wide) ∧
    (bw ∈ bwSet .hybrid ↔ bw = .superWide ∨ bw = .full) ∧
    (bw ∈ bwSet .transform ↔ bw ≠ .medium)) ∧
  (∀ n : Nat,
    (n ∈ validSizes .speech ↔ n = 480 ∨ n = 960 ∨ n = 1920 ∨ n = 2880) ∧
    (n ∈ validSizes .transform ↔ n = 120 ∨ n = 240 ∨ n = 480 ∨ n = 960) ∧
    (n ∈ validSizes .hybrid ↔ n = 480 ∨ n = 960 ∨ n = 1920 ∨ n = 2880) ∧
    (n ∈ validSizes .auto ↔ n = 120 ∨ n = 240 ∨ n = 480 ∨ n = 960 ∨ n = 1920 ∨ n = 2880)) ∧
  (Mode.auto.code = 0 ∧ Mode.speech.code = 1 ∧ Mode.transform.code = 2 ∧ Mode.hybrid.code = 3) ∧
  (Coder.speech.code = 1 ∧ Coder.transform.code = 2 ∧ Coder.hybrid.code = 3) ∧
  (Bandwidth.narrow.code = 0 ∧ Bandwidth.medium.code = 1 ∧ Bandwidth.wide.code = 2 ∧ Bandwidth.superWide.code = 3 ∧
    Bandwidth.full.code = 4) ∧
  (RateMode.vbr.code = 0 ∧ RateMode.cvbr.code = 1 ∧ RateMode.cbr.code = 2) ∧
  (∀ w : Word,
    (∀ m, Mode.ofWord? w = some m ↔ m.code = w) ∧ (∀ c, Coder.ofWord? w = some c ↔ c.code = w) ∧
    (∀ b, Bandwidth.ofWord? w = some b ↔ b.code = w) ∧ (∀ r, RateMode.ofWord? w = some r ↔ r.code = w))

/-- R210 to R214: `PKT.CHECK` succeeds on a valid size, unit and bandwidth, with the plan the rule computes from the
effective coder and bandwidth (LFE, Auto, or the configured mode), and writes no state. -/
def Obligations.PktCheckPlansTheValidPacket : Prop :=
  ∀ (s : State) (coder : Coder) (bw : Bandwidth) (m unit : Nat),
    s.cfg.frameSize.toNat ∈ validSizes s.cfg.mode →
    ((s.cfg.flags.lfe = true ∧ coder = .transform ∧ bw = .narrow) ∨
      (s.cfg.flags.lfe = false ∧ bw.code = s.io.arg1 ∧
        ((s.cfg.mode = .auto ∧ coder.code = s.io.arg0) ∨ s.cfg.mode.code = coder.code))) →
    (((s.cfg.mode = .hybrid ∨ s.cfg.mode = .auto) ∧ s.cfg.frameSize = 1920 ∧ m = 2 ∧ unit = 960) ∨
      ((s.cfg.mode = .hybrid ∨ s.cfg.mode = .auto) ∧ s.cfg.frameSize = 2880 ∧ m = 3 ∧ unit = 960) ∨
      (((s.cfg.mode = .speech ∨ s.cfg.mode = .transform) ∨ (s.cfg.frameSize ≠ 1920 ∧ s.cfg.frameSize ≠ 2880)) ∧
        m = 1 ∧ unit = s.cfg.frameSize.toNat)) →
    unit ∈ unitSet coder → bw ∈ bwSet coder →
    exec .pktCheck s = .next (s.complete 0x50
      (BitVec.ofNat 32 (cfgIndex coder bw unit * 8 + (if s.cfg.channels = 2 then 4 else 0) + 256 * m))
      (BitVec.ofNat 32 (unit + 65536 * coder.code.toNat + 1048576 * bw.code.toNat)))

/-- R210, R252: the errors of `PKT.CHECK`: an operand that is read and out of range, a size the mode does not accept, a
unit the effective coder does not have, a bandwidth without a table entry, in that order. -/
def Obligations.PktCheckErrorsInOrder : Prop :=
  ∀ s : State,
    (s.cfg.flags.lfe = false → 4 < s.io.arg1.toNat → exec .pktCheck s = .next (s.takeError 0x50 (.badOperand 1))) ∧
    (s.cfg.flags.lfe = false → s.io.arg1.toNat ≤ 4 → s.cfg.mode = .auto → s.io.arg0.toNat ∉ [1, 2, 3] →
      exec .pktCheck s = .next (s.takeError 0x50 (.badOperand 0))) ∧
    ((s.cfg.flags.lfe = true ∨ (s.io.arg1.toNat ≤ 4 ∧ (s.cfg.mode ≠ .auto ∨ s.io.arg0.toNat ∈ [1, 2, 3]))) →
      s.cfg.frameSize.toNat ∉ validSizes s.cfg.mode →
      exec .pktCheck s = .next (s.takeError 0x50 (.invalidFrameSize s.cfg.frameSize))) ∧
    (∀ coder bw, effectiveCoder s = some coder → effectiveBandwidth s = some bw →
      s.cfg.frameSize.toNat ∈ validSizes s.cfg.mode →
      (expand s.cfg.mode s.cfg.frameSize.toNat).2 ∉ unitSet coder →
      exec .pktCheck s = .next (s.takeError 0x50 (.invalidFrameSize s.cfg.frameSize))) ∧
    (∀ coder bw, effectiveCoder s = some coder → effectiveBandwidth s = some bw →
      s.cfg.frameSize.toNat ∈ validSizes s.cfg.mode →
      (expand s.cfg.mode s.cfg.frameSize.toNat).2 ∈ unitSet coder → bw ∉ bwSet coder →
      exec .pktCheck s = .next (s.takeError 0x50 (.badOperand 2)))

/-- R215: `PKT.TOC`, its result on a table entry and its four errors in order. -/
def Obligations.PktTocLooksUpTheTable : Prop :=
  ∀ s : State,
    (∀ coder bw, coder.code = s.io.arg0 → bw.code = s.io.arg1 → s.io.arg2.toNat ∈ unitSet coder → bw ∈ bwSet coder →
      exec .pktToc s = .next (s.complete 0x51
        (BitVec.ofNat 32 (cfgIndex coder bw s.io.arg2.toNat * 8 + if s.cfg.channels = 2 then 4 else 0))
        (BitVec.ofNat 32 (cfgIndex coder bw s.io.arg2.toNat)))) ∧
    (s.io.arg0.toNat ∉ [1, 2, 3] → exec .pktToc s = .next (s.takeError 0x51 (.badOperand 0))) ∧
    (s.io.arg0.toNat ∈ [1, 2, 3] → 4 < s.io.arg1.toNat → exec .pktToc s = .next (s.takeError 0x51 (.badOperand 1))) ∧
    (∀ coder : Coder, coder.code = s.io.arg0 → s.io.arg1.toNat ≤ 4 → s.io.arg2.toNat ∉ unitSet coder →
      exec .pktToc s = .next (s.takeError 0x51 (.invalidFrameSize s.io.arg2))) ∧
    (∀ (coder : Coder) (bw : Bandwidth), coder.code = s.io.arg0 → bw.code = s.io.arg1 →
      s.io.arg2.toNat ∈ unitSet coder → bw ∉ bwSet coder →
      exec .pktToc s = .next (s.takeError 0x51 (.badOperand 2)))

/-- R216: `PKT.BUILD` on valid operands writes exactly the packet of the rule, its length and its results; no byte
outside it changes. -/
def Obligations.PktBuildWritesThePacket : Prop :=
  ∀ (s : State) (l0 l1 l2 total : Nat) (base : Byte) (q : List Byte),
    l0 = s.col.frmLen0.toNat → l1 = s.col.frmLen1.toNat → l2 = s.col.frmLen2.toNat →
    base = s.io.arg0.extractLsb' 0 8 → s.io.arg0.extractLsb' 8 24 = 0 → s.io.arg0.extractLsb' 0 2 = 0 →
    s.col.subencStatus = 0 →
    ((s.io.arg1 = 1 ∧ l0 ≤ 1275 ∧ total = 1 + l0 ∧ q = base :: s.frmBytes 0 l0) ∨
      (s.io.arg1 = 2 ∧ l0 ≤ 1275 ∧ l1 ≤ 1275 ∧ total = 2 + (if l0 ≤ 251 then 1 else 2) + (l0 + l1) ∧
        q = [base ||| 3, 130] ++ encLen l0 ++ s.frmBytes 0 l0 ++ s.frmBytes 1 l1) ∨
      (s.io.arg1 = 3 ∧ l0 ≤ 1275 ∧ l1 ≤ 1275 ∧ l2 ≤ 1275 ∧
        total = 2 + ((if l0 ≤ 251 then 1 else 2) + (if l1 ≤ 251 then 1 else 2)) + (l0 + l1 + l2) ∧
        q = [base ||| 3, 131] ++ encLen l0 ++ encLen l1 ++ s.frmBytes 0 l0 ++ s.frmBytes 1 l1 ++ s.frmBytes 2 l2)) →
    (s.col.outCap.toNat < total →
      exec .pktBuild s = .next (s.takeError 0x52 (.bufferTooSmall (BitVec.ofNat 32 total)))) ∧
    (total ≤ s.col.outCap.toNat →
      ∃ t, exec .pktBuild s = .next t ∧
        t = ({ s with mem := t.mem, col := { s.col with pktLen := BitVec.ofNat 32 total } } : State).complete 0x52
          (BitVec.ofNat 32 total) (if s.io.arg1 = 1 then 0 else 3) ∧
        t.pktBytes total = q ∧ (∀ a, (a < 0x1000 ∨ 0x1000 + total ≤ a) → t.byteAt a = s.byteAt a))

/-- R216: the operand checks of `PKT.BUILD`, the sub-encoder's error first; only the lengths of the first `M` slots are
looked at. -/
def Obligations.PktBuildChecksInOrder : Prop :=
  ∀ s : State,
    (s.col.subencStatus ≠ 0 → exec .pktBuild s = .next (s.takeError 0x52 (.subEncoderFailure s.col.subencStatus))) ∧
    (s.col.subencStatus = 0 → (s.io.arg0.extractLsb' 8 24 ≠ 0 ∨ s.io.arg0.extractLsb' 0 2 ≠ 0) →
      exec .pktBuild s = .next (s.takeError 0x52 (.badOperand 0))) ∧
    (s.col.subencStatus = 0 → s.io.arg0.extractLsb' 8 24 = 0 → s.io.arg0.extractLsb' 0 2 = 0 →
      (s.io.arg1.toNat < 1 ∨ 3 < s.io.arg1.toNat) → exec .pktBuild s = .next (s.takeError 0x52 (.badOperand 1))) ∧
    (s.col.subencStatus = 0 → s.io.arg0.extractLsb' 8 24 = 0 → s.io.arg0.extractLsb' 0 2 = 0 →
      1 ≤ s.io.arg1.toNat → s.io.arg1.toNat ≤ 3 →
      (1275 < s.col.frmLen0.toNat → exec .pktBuild s = .next (s.takeError 0x52 (.badOperand 2))) ∧
      (s.col.frmLen0.toNat ≤ 1275 → 2 ≤ s.io.arg1.toNat → 1275 < s.col.frmLen1.toNat →
        exec .pktBuild s = .next (s.takeError 0x52 (.badOperand 3))) ∧
      (s.col.frmLen0.toNat ≤ 1275 → s.col.frmLen1.toNat ≤ 1275 → s.io.arg1.toNat = 3 → 1275 < s.col.frmLen2.toNat →
        exec .pktBuild s = .next (s.takeError 0x52 (.badOperand 4))))

/-- R217: `PKT.CN` writes the TOC byte as a packet of one byte, or raises one of its two errors. -/
def Obligations.PktCnWritesOneByte : Prop :=
  ∀ s : State,
    ((s.io.arg0.extractLsb' 8 24 ≠ 0 ∨ s.io.arg0.extractLsb' 0 2 ≠ 0) →
      exec .pktCn s = .next (s.takeError 0x53 (.badOperand 0))) ∧
    (s.io.arg0.extractLsb' 8 24 = 0 → s.io.arg0.extractLsb' 0 2 = 0 → s.col.outCap = 0 →
      exec .pktCn s = .next (s.takeError 0x53 (.bufferTooSmall 1))) ∧
    (s.io.arg0.extractLsb' 8 24 = 0 → s.io.arg0.extractLsb' 0 2 = 0 → s.col.outCap ≠ 0 →
      ∃ t, exec .pktCn s = .next t ∧
        t = ({ s with mem := t.mem, col := { s.col with pktLen := 1 } } : State).complete 0x53 1 0 ∧
        t.byteAt 0x1000 = s.io.arg0.extractLsb' 0 8 ∧ (∀ a, a ≠ 0x1000 → t.byteAt a = s.byteAt a))
end

