-- ==== Sys2Proof/Laws/Config.lean ====
section
/-! SUPPORT. The spec's values of the parameters (00_scope.md R6), and the forms in which the rules write what is computed
from them. -/

namespace Sys2Proof.Machine

open Sys2Proof.Config

/-- The width of a register is `W_REG`. -/
theorem word_eq : Word = BitVec specParams.wReg := rfl
@[simp] theorem addrSpace_eq : addrSpace = 0x20000 := rfl
@[simp] theorem pktCap_eq : pktCap = 4096 := rfl
@[simp] theorem smpCap_eq : smpCap = 5760 := rfl
@[simp] theorem frmSlotBytes_eq : frmSlotBytes = 1280 := rfl
@[simp] theorem frmSlots_eq : frmSlots = 3 := rfl
@[simp] theorem maxFrameBytes_eq : maxFrameBytes = 1275 := rfl
@[simp] theorem vadNBands_specNum : specNum.vadNBands = 4 := rfl
@[simp] theorem lossMinPct_eq : lossMinPct = 1 := rfl
@[simp] theorem lbrrFloor_eq : lbrrFloor = 6000 := rfl

/-- `lo = floor(17 t / 20)` (R193). -/
theorem cvbrLo_eq (t : Nat) : cvbrLo t = 17 * t / 20 := by
  simp only [cvbrLo, specParams]
  omega

/-- `hi = floor((23 t + 19) / 20)` (R193). -/
theorem cvbrHi_eq (t : Nat) : cvbrHi t = (23 * t + 19) / 20 := by
  simp only [cvbrHi, specParams]
  omega

/-- `max(floor(3 p / 5), 6000)` (R183). -/
theorem redundancyRate_eq (p : Nat) : redundancyRate p = max (3 * p / 5) 6000 := rfl

/-- The energy of a band as R136 writes it out: three sub-frames whole, the fourth at half weight. -/
theorem bandEnergy_specNum (carry : Int) (band : List Int) :
    bandEnergy specNum carry band =
      addPosSat32 (addPosSat32 (addPosSat32 (addPosSat32 carry (subEnergy specNum band 0)) (subEnergy specNum band 1))
        (subEnergy specNum band 2)) (asr (subEnergy specNum band 3) 1) := rfl

end Sys2Proof.Machine
end

