-- ==== Sys2Proof/Laws/State.lean ====
section
/-! SUPPORT. One lemma per field per update of the state, each true by `rfl`: completion, error completion, a written
packet, a retained frame, hardware reset. -/

namespace Sys2Proof.Machine

section Complete
variable (s : State) (w r0 r1 : Word)

@[simp] theorem complete_cfg : (s.complete w r0 r1).cfg = s.cfg := rfl
@[simp] theorem complete_col : (s.complete w r0 r1).col = s.col := rfl
@[simp] theorem complete_vad : (s.complete w r0 r1).vad = s.vad := rfl
@[simp] theorem complete_dtx : (s.complete w r0 r1).dtx = s.dtx := rfl
@[simp] theorem complete_fec : (s.complete w r0 r1).fec = s.fec := rfl
@[simp] theorem complete_mem : (s.complete w r0 r1).mem = s.mem := rfl
@[simp] theorem complete_era : (s.complete w r0 r1).era = s.era := rfl
@[simp] theorem complete_pending : (s.complete w r0 r1).pending = s.pending := rfl
@[simp] theorem complete_port : (s.complete w r0 r1).port = s.port := rfl
@[simp] theorem complete_io_cmd : (s.complete w r0 r1).io.cmd = w := rfl
@[simp] theorem complete_io_arg0 : (s.complete w r0 r1).io.arg0 = s.io.arg0 := rfl
@[simp] theorem complete_io_arg1 : (s.complete w r0 r1).io.arg1 = s.io.arg1 := rfl
@[simp] theorem complete_io_arg2 : (s.complete w r0 r1).io.arg2 = s.io.arg2 := rfl
@[simp] theorem complete_io_status : (s.complete w r0 r1).io.status = ⟨0, true⟩ := rfl
@[simp] theorem complete_io_res0 : (s.complete w r0 r1).io.res0 = r0 := rfl
@[simp] theorem complete_io_res1 : (s.complete w r0 r1).io.res1 = r1 := rfl
@[simp] theorem complete_io_errInfo : (s.complete w r0 r1).io.errInfo = 0 := rfl
@[simp] theorem complete_io_cmdSeq : (s.complete w r0 r1).io.cmdSeq = s.io.cmdSeq + 1 := rfl
@[simp] theorem complete_io_irqEn : (s.complete w r0 r1).io.irqEn = s.io.irqEn := rfl
@[simp] theorem complete_io_irqPend : (s.complete w r0 r1).io.irqPend = s.io.irqPend := rfl

end Complete

section TakeError
variable (s : State) (w : Word) (e : CmdError)

@[simp] theorem takeError_cfg : (s.takeError w e).cfg = s.cfg := rfl
@[simp] theorem takeError_col : (s.takeError w e).col = s.col := rfl
@[simp] theorem takeError_vad : (s.takeError w e).vad = s.vad := rfl
@[simp] theorem takeError_dtx : (s.takeError w e).dtx = s.dtx := rfl
@[simp] theorem takeError_fec : (s.takeError w e).fec = s.fec := rfl
@[simp] theorem takeError_mem : (s.takeError w e).mem = s.mem := rfl
@[simp] theorem takeError_era : (s.takeError w e).era = s.era := rfl
@[simp] theorem takeError_pending : (s.takeError w e).pending = s.pending := rfl
@[simp] theorem takeError_port : (s.takeError w e).port = s.port := rfl
@[simp] theorem takeError_io_cmd : (s.takeError w e).io.cmd = w := rfl
@[simp] theorem takeError_io_arg0 : (s.takeError w e).io.arg0 = s.io.arg0 := rfl
@[simp] theorem takeError_io_arg1 : (s.takeError w e).io.arg1 = s.io.arg1 := rfl
@[simp] theorem takeError_io_arg2 : (s.takeError w e).io.arg2 = s.io.arg2 := rfl
@[simp] theorem takeError_io_status : (s.takeError w e).io.status = ⟨e.code, true⟩ := rfl
@[simp] theorem takeError_io_res0 : (s.takeError w e).io.res0 = 0 := rfl
@[simp] theorem takeError_io_res1 : (s.takeError w e).io.res1 = 0 := rfl
@[simp] theorem takeError_io_errInfo : (s.takeError w e).io.errInfo = e.info := rfl
@[simp] theorem takeError_io_cmdSeq : (s.takeError w e).io.cmdSeq = s.io.cmdSeq + 1 := rfl
@[simp] theorem takeError_io_irqEn : (s.takeError w e).io.irqEn = s.io.irqEn := rfl
@[simp] theorem takeError_io_irqPend : (s.takeError w e).io.irqPend = true := rfl

end TakeError

section StorePacket
variable (s : State) (q : List Byte) (len : Nat)

@[simp] theorem storePacket_cfg : (s.storePacket q len).cfg = s.cfg := rfl
@[simp] theorem storePacket_io : (s.storePacket q len).io = s.io := rfl
@[simp] theorem storePacket_vad : (s.storePacket q len).vad = s.vad := rfl
@[simp] theorem storePacket_dtx : (s.storePacket q len).dtx = s.dtx := rfl
@[simp] theorem storePacket_fec : (s.storePacket q len).fec = s.fec := rfl
@[simp] theorem storePacket_era : (s.storePacket q len).era = s.era := rfl
@[simp] theorem storePacket_pending : (s.storePacket q len).pending = s.pending := rfl
@[simp] theorem storePacket_port : (s.storePacket q len).port = s.port := rfl
@[simp] theorem storePacket_mem : (s.storePacket q len).mem = Memory.storeBytes s.mem Config.pktBase q := rfl
@[simp] theorem storePacket_col_pktLen : (s.storePacket q len).col.pktLen = BitVec.ofNat _ len := rfl
@[simp] theorem storePacket_col_anaValid : (s.storePacket q len).col.anaValid = s.col.anaValid := rfl
@[simp] theorem storePacket_col_anaProbQ15 : (s.storePacket q len).col.anaProbQ15 = s.col.anaProbQ15 := rfl
@[simp] theorem storePacket_col_subencStatus : (s.storePacket q len).col.subencStatus = s.col.subencStatus := rfl
@[simp] theorem storePacket_col_outCap : (s.storePacket q len).col.outCap = s.col.outCap := rfl
@[simp] theorem storePacket_col_smpCount : (s.storePacket q len).col.smpCount = s.col.smpCount := rfl
@[simp] theorem storePacket_col_frmLen0 : (s.storePacket q len).col.frmLen0 = s.col.frmLen0 := rfl
@[simp] theorem storePacket_col_frmLen1 : (s.storePacket q len).col.frmLen1 = s.col.frmLen1 := rfl
@[simp] theorem storePacket_col_frmLen2 : (s.storePacket q len).col.frmLen2 = s.col.frmLen2 := rfl

end StorePacket

section RetainFrame
variable (s : State) (n : Nat)

@[simp] theorem retainFrame_cfg : (s.retainFrame n).cfg = s.cfg := rfl
@[simp] theorem retainFrame_io : (s.retainFrame n).io = s.io := rfl
@[simp] theorem retainFrame_col : (s.retainFrame n).col = s.col := rfl
@[simp] theorem retainFrame_vad : (s.retainFrame n).vad = s.vad := rfl
@[simp] theorem retainFrame_dtx : (s.retainFrame n).dtx = s.dtx := rfl
@[simp] theorem retainFrame_fec : (s.retainFrame n).fec = s.fec := rfl
@[simp] theorem retainFrame_era : (s.retainFrame n).era = s.era := rfl
@[simp] theorem retainFrame_pending : (s.retainFrame n).pending = s.pending := rfl
@[simp] theorem retainFrame_port : (s.retainFrame n).port = s.port := rfl
@[simp] theorem retainFrame_mem :
    (s.retainFrame n).mem = Memory.storeSamples s.mem Config.fecBase (s.samplesFrom Config.smpBase n) := rfl

end RetainFrame

section HardwareReset
variable (P : Config.NumCfg) (s : State)

@[simp] theorem hardwareReset_cfg : (State.hardwareReset P s).cfg = initConfig P := rfl
@[simp] theorem hardwareReset_io : (State.hardwareReset P s).io = resetCommand := rfl
@[simp] theorem hardwareReset_col : (State.hardwareReset P s).col = resetCollab := rfl
@[simp] theorem hardwareReset_vad : (State.hardwareReset P s).vad = vadInit P := rfl
@[simp] theorem hardwareReset_dtx : (State.hardwareReset P s).dtx = resetDtx := rfl
@[simp] theorem hardwareReset_fec : (State.hardwareReset P s).fec = resetFec := rfl
@[simp] theorem hardwareReset_mem : (State.hardwareReset P s).mem = [] := rfl
@[simp] theorem hardwareReset_era : (State.hardwareReset P s).era = s.era + 1 := rfl
@[simp] theorem hardwareReset_pending : (State.hardwareReset P s).pending = s.pending := rfl
@[simp] theorem hardwareReset_port : (State.hardwareReset P s).port = .none := rfl

end HardwareReset

section Reset
variable (P : Config.NumCfg)

@[simp] theorem resetWith_cfg : (State.resetWith P).cfg = initConfig P := rfl
@[simp] theorem resetWith_io : (State.resetWith P).io = resetCommand := rfl
@[simp] theorem resetWith_col : (State.resetWith P).col = resetCollab := rfl
@[simp] theorem resetWith_vad : (State.resetWith P).vad = vadInit P := rfl
@[simp] theorem resetWith_dtx : (State.resetWith P).dtx = resetDtx := rfl
@[simp] theorem resetWith_fec : (State.resetWith P).fec = resetFec := rfl
@[simp] theorem resetWith_mem : (State.resetWith P).mem = [] := rfl
@[simp] theorem resetWith_era : (State.resetWith P).era = 0 := rfl
@[simp] theorem resetWith_pending : (State.resetWith P).pending = [] := rfl
@[simp] theorem resetWith_port : (State.resetWith P).port = .none := rfl

/-- The reset column of R39. -/
theorem resetVad_eq : resetVad =
    { ana0 := ⟨0, 0⟩, ana1 := ⟨0, 0⟩, ana2 := ⟨0, 0⟩, hpState := 0, counter := 15, nl := ⟨5000, 2500, 1600, 1200⟩,
      invNl := ⟨429496, 858993, 1342177, 1789569⟩, nrgRatioSmthQ8 := ⟨25600, 25600, 25600, 25600⟩,
      noiseBias := ⟨50, 25, 16, 12⟩, xnrgSubfr := ⟨0, 0, 0, 0⟩, qualityQ15 := ⟨0, 0, 0, 0⟩, saQ8 := 0, tiltQ15 := 0,
      active := false } := by decide

end Reset

end Sys2Proof.Machine
end

