-- ==== Sys2Proof/Laws/Memory.lean ====
section
/-! SUPPORT. The laws of the buffers: what a byte reads as after a splice, that every memory operation keeps the
canonical form, and how far a store reaches. -/

namespace Sys2Proof.Machine

open Sys2Proof.Config

theorem byte?_append (m₁ m₂ : Memory) (a : Nat) :
    Memory.byte? (m₁ ++ m₂) a = (Memory.byte? m₁ a).or (Memory.byte? m₂ a) := by
  induction m₁ with
  | nil => simp [Memory.byte?]
  | cons c rest ih =>
    obtain ⟨k, b⟩ := c
    simp only [List.cons_append, Memory.byte?]
    split <;> simp [ih]

theorem byte?_filter (m : Memory) (p : Nat → Bool) (a : Nat) :
    Memory.byte? (m.filter (fun c => p c.1)) a = if p a then Memory.byte? m a else none := by
  induction m with
  | nil => simp [Memory.byte?]
  | cons c rest ih =>
    obtain ⟨k, b⟩ := c
    by_cases hk : k = a
    · subst hk
      by_cases hp : p k <;> simp [hp, Memory.byte?, ih]
    · by_cases hp : p k <;> simp [hp, Memory.byte?, hk, ih]

theorem byte?_eq_none {m : Memory} {a : Nat} (h : ∀ c ∈ m, c.1 ≠ a) : Memory.byte? m a = none := by
  induction m with
  | nil => rfl
  | cons c rest ih =>
    obtain ⟨k, b⟩ := c
    have hk : k ≠ a := h (k, b) (by simp)
    simp [Memory.byte?, hk, ih (fun c hc => h c (by simp [hc]))]

/-- What a byte reads as after a splice whose cells lie in its range. -/
theorem byte?_splice {m cells : Memory} {lo hi : Nat} (hlh : lo ≤ hi)
    (hc : ∀ c ∈ cells, lo ≤ c.1 ∧ c.1 < hi) (a : Nat) :
    Memory.byte? (Memory.splice m lo hi cells) a =
      if lo ≤ a ∧ a < hi then Memory.byte? cells a else Memory.byte? m a := by
  have h1 := byte?_filter m (fun k => decide (k < lo)) a
  have h2 := byte?_filter m (fun k => decide (hi ≤ k)) a
  simp only [Memory.splice, byte?_append, h1, h2, decide_eq_true_eq]
  by_cases hin : lo ≤ a ∧ a < hi
  · simp [hin, Nat.not_lt.mpr hin.1, Nat.not_le.mpr hin.2]
  · have : Memory.byte? cells a = none := byte?_eq_none (fun c hm heq => hin (heq ▸ hc c hm))
    rw [if_neg hin, this]
    by_cases ha : a < lo
    · have hna : ¬ hi ≤ a := by omega
      simp [ha, hna]
    · have hna : hi ≤ a := by omega
      simp [ha, hna]

/-- A splice keeps the canonical form. -/
theorem wf_splice {m cells : Memory} {lo hi : Nat} (hlh : lo ≤ hi) (hm : m.wf) (hw : Memory.wf cells)
    (hc : ∀ c ∈ cells, lo ≤ c.1 ∧ c.1 < hi) : Memory.wf (Memory.splice m lo hi cells) := by
  unfold Memory.wf Memory.splice at *
  rw [List.pairwise_append, List.pairwise_append]
  refine ⟨⟨hm.filter _, hw, ?_⟩, hm.filter _, ?_⟩
  · intro x hx y hy
    have := (List.mem_filter.mp hx).2
    have := hc y hy
    simp only [decide_eq_true_eq] at *
    omega
  · intro x hx y hy
    have hy' := (List.mem_filter.mp hy).2
    simp only [decide_eq_true_eq] at hy'
    rcases List.mem_append.mp hx with hx | hx
    · have := (List.mem_filter.mp hx).2
      simp only [decide_eq_true_eq] at this
      omega
    · have := hc x hx
      omega

theorem mem_splice {m cells : Memory} {lo hi : Nat} {c : Host.Cell} (h : c ∈ Memory.splice m lo hi cells) :
    c ∈ m ∨ c ∈ cells := by
  simp only [Memory.splice, List.mem_append, List.mem_filter] at h
  tauto

theorem mem_byteCells {bs : List Byte} {a : Nat} {c : Host.Cell} (h : c ∈ byteCells a bs) :
    a ≤ c.1 ∧ c.1 < a + bs.length := by
  induction bs generalizing a with
  | nil => simp [byteCells] at h
  | cons b rest ih =>
    rcases List.mem_cons.mp h with rfl | h
    · simp
    · have := ih h
      simp only [List.length_cons]
      omega

theorem wf_byteCells (a : Nat) (bs : List Byte) : Memory.wf (byteCells a bs) := by
  induction bs generalizing a with
  | nil => exact List.Pairwise.nil
  | cons b rest ih =>
    refine List.Pairwise.cons (fun c hc => ?_) (ih (a + 1))
    have := mem_byteCells hc
    simp only
    omega

theorem byte?_byteCells (a : Nat) (bs : List Byte) (k : Nat) :
    Memory.byte? (byteCells a bs) (a + k) = bs[k]? := by
  induction bs generalizing a k with
  | nil => simp [byteCells, Memory.byte?]
  | cons b rest ih =>
    cases k with
    | zero => simp [byteCells, Memory.byte?]
    | succ k =>
      have h := ih (a + 1) k
      rw [show a + 1 + k = a + (k + 1) by omega] at h
      simp [byteCells, Memory.byte?, h]

theorem mem_sampleCells {vs : List (BitVec 24)} {a : Nat} {c : Host.Cell} (h : c ∈ sampleCells a vs) :
    a ≤ c.1 ∧ c.1 < a + 4 * vs.length ∧ (c.1 - a) % 4 ≠ 3 := by
  induction vs generalizing a with
  | nil => simp [sampleCells] at h
  | cons v rest ih =>
    simp only [sampleCells, List.mem_cons] at h
    simp only [List.length_cons]
    rcases h with rfl | rfl | rfl | h
    · simp
    · simp only; omega
    · simp only; omega
    · have := ih h
      omega

theorem wf_sampleCells (a : Nat) (vs : List (BitVec 24)) : Memory.wf (sampleCells a vs) := by
  induction vs generalizing a with
  | nil => exact List.Pairwise.nil
  | cons v rest ih =>
    have hr : ∀ c ∈ sampleCells (a + 4) rest, a + 4 ≤ c.1 := fun c hc => (mem_sampleCells hc).1
    refine List.Pairwise.cons ?_ (List.Pairwise.cons ?_ (List.Pairwise.cons ?_ (ih (a + 4))))
    · intro c hc
      simp only [List.mem_cons] at hc
      rcases hc with rfl | rfl | hc
      · simp
      · simp
      · have := hr c hc; simp only; omega
    · intro c hc
      simp only [List.mem_cons] at hc
      rcases hc with rfl | hc
      · simp
      · have := hr c hc; simp only; omega
    · intro c hc
      have := hr c hc
      simp only
      omega

theorem wf_storeBytes {m : Memory} (hm : m.wf) (a : Nat) (bs : List Byte) : Memory.wf (Memory.storeBytes m a bs) :=
  wf_splice (by omega) hm (wf_byteCells a bs) (fun _ hc => mem_byteCells hc)

theorem wf_storeSamples {m : Memory} (hm : m.wf) (a : Nat) (vs : List (BitVec 24)) :
    Memory.wf (Memory.storeSamples m a vs) :=
  wf_splice (by omega) hm (wf_sampleCells a vs) (fun _ hc => ⟨(mem_sampleCells hc).1, (mem_sampleCells hc).2.1⟩)

/-- What a byte reads as after a store of bytes: the stored byte inside, the old one outside. -/
theorem byte?_storeBytes (m : Memory) (a : Nat) (bs : List Byte) (k : Nat) :
    Memory.byte? (Memory.storeBytes m a bs) k =
      if a ≤ k ∧ k < a + bs.length then bs[k - a]? else Memory.byte? m k := by
  rw [Memory.storeBytes, byte?_splice (by omega) (fun _ hc => mem_byteCells hc)]
  split
  · next h => rw [← byte?_byteCells a bs (k - a)]; congr 1; omega
  · rfl

/-- A store of samples leaves every byte outside its words as it was. -/
theorem byte?_storeSamples_outside (m : Memory) (a : Nat) (vs : List (BitVec 24)) (k : Nat)
    (h : k < a ∨ a + 4 * vs.length ≤ k) : Memory.byte? (Memory.storeSamples m a vs) k = Memory.byte? m k := by
  rw [Memory.storeSamples,
    byte?_splice (by omega) (fun _ hc => ⟨(mem_sampleCells hc).1, (mem_sampleCells hc).2.1⟩), if_neg (by omega)]

theorem byte?_sampleCells (a : Nat) (vs : List (BitVec 24)) (i j : Nat) (hj : j < 3) :
    Memory.byte? (sampleCells a vs) (a + 4 * i + j) = (vs[i]?).map (fun v => v.extractLsb' (8 * j) 8) := by
  induction vs generalizing a i with
  | nil => simp [sampleCells, Memory.byte?]
  | cons v rest ih =>
    cases i with
    | zero =>
      match j, hj with
      | 0, _ => simp [sampleCells, Memory.byte?]
      | 1, _ => simp [sampleCells, Memory.byte?]
      | 2, _ => simp [sampleCells, Memory.byte?]
    | succ i =>
      have h := ih (a + 4) i
      rw [show a + 4 + 4 * i + j = a + 4 * (i + 1) + j by omega] at h
      have h0 : ¬ (a = a + 4 * (i + 1) + j) := by omega
      have h1 : ¬ (a + 1 = a + 4 * (i + 1) + j) := by omega
      have h2 : ¬ (a + 2 = a + 4 * (i + 1) + j) := by omega
      simp [sampleCells, Memory.byte?, h, h0, h1, h2]

/-- The stored byte of a sample word reads back. -/
theorem byte?_storeSamples_inside (m : Memory) (a : Nat) (vs : List (BitVec 24)) (i j : Nat) (hi : i < vs.length)
    (hj : j < 3) :
    Memory.byte? (Memory.storeSamples m a vs) (a + 4 * i + j) = (vs[i]?).map (fun v => v.extractLsb' (8 * j) 8) := by
  rw [Memory.storeSamples,
    byte?_splice (by omega) (fun _ hc => ⟨(mem_sampleCells hc).1, (mem_sampleCells hc).2.1⟩), if_pos (by omega),
    byte?_sampleCells a vs i j hj]

end Sys2Proof.Machine
end

