-- ==== Sys2Proof/Laws/Command.lean ====
section
/-! SUPPORT. What a command can do, said once: every command is its body on the state, completed (`exec_eq_finish`), and a
completion is a success or an error (`finish_cases`). With the small lemmas of the error checks and of the byte reads. -/

namespace Sys2Proof.Machine

open Sys2Proof.Config

@[simp] theorem raiseIf_bind {α : Type} (c : Prop) [Decidable c] (e : CmdError) (k : Unit → Except CmdError α) :
    (raiseIf c e >>= k) = if c then .error e else k () := by
  unfold raiseIf
  split <;> rfl

@[simp] theorem orRaise_some_bind {α β : Type} (a : α) (e : CmdError) (k : α → Except CmdError β) :
    (orRaise (some a) e >>= k) = k a := rfl

@[simp] theorem orRaise_none_bind {α β : Type} (e : CmdError) (k : α → Except CmdError β) :
    (orRaise none e >>= k) = .error e := rfl

/-- A `raise` does not happen, or ends the command with its error. -/
theorem raiseIf_cases (c : Prop) [Decidable c] (e : CmdError) :
    (c ∧ raiseIf c e = .error e) ∨ (¬c ∧ raiseIf c e = .ok ()) := by
  unfold raiseIf
  by_cases h : c <;> simp [h]

/-- The body of each command: what it does before the completion registers are written. -/
def commandBody (P : NumCfg) : Instr → State → CmdResult
  | .nop, s => .ok ⟨s, 0, 0⟩
  | .reset, s => .ok ⟨{ s with dtx := resetDtx, fec := resetFec }, 0, 0⟩
  | .vadInit, s => vadInitBody P s
  | .vadEval, s => vadEval P s
  | .dtxDecide, s => dtxDecide P s
  | .fecQuery, s => .ok ⟨s, flagBit (redundancyWanted s) 0, flagBit s.fec.prevActive 0⟩
  | .fecRecord wasActive, s => fecRecord wasActive s
  | .fecRate, s => .ok ⟨s, BitVec.ofNat _ (redundancyRate s.io.arg0.toNat), 0⟩
  | .brcTarget, s => .ok ⟨s, BitVec.ofNat _ (targetBytes s.io.arg0.toNat s.io.arg1.toNat), 0⟩
  | .brcConform, s => brcConform s
  | .pktPad, s => pktPad s
  | .pktCheck, s => pktCheck s
  | .pktToc, s => pktToc s
  | .pktBuild, s => pktBuild s
  | .pktCn, s => pktCn s

/-- Every command, under every numeric configuration, is its body, completed; it always answers a next state. -/
theorem execWith_eq_finish (P : NumCfg) (i : Instr) (s : State) :
    execWith P i s = .next (s.finish (encode i) (commandBody P i s)) := by
  cases i <;> rfl

/-- `exec` is the spec's instance of `execWith` (R120). -/
theorem exec_eq_execWith (i : Instr) (s : State) : exec i s = execWith specNum i s := by
  cases i <;> rfl

/-- `step` is the spec's instance of `stepWith` (R120). -/
theorem step_eq_stepWith (s : State) : step s = stepWith specNum s := by
  have h : exec = execWith specNum := funext fun i => funext fun t => exec_eq_execWith i t
  rw [step, stepWith, h]

theorem exec_eq_finish (i : Instr) (s : State) :
    exec i s = .next (s.finish (encode i) (commandBody specNum i s)) := by
  rw [exec_eq_execWith, execWith_eq_finish]

@[simp] theorem finish_ok (s : State) (w : Word) (d : Done) :
    s.finish w (.ok d) = d.state.complete w d.res0 d.res1 := rfl

@[simp] theorem finish_error (s : State) (w : Word) (e : CmdError) : s.finish w (.error e) = s.takeError w e := rfl

/-- What a command can do: its body succeeds and is completed, or raises an error taken on the state before it. -/
theorem execWith_cases {P : NumCfg} {i : Instr} {s t : State} (h : execWith P i s = .next t) :
    (∃ d, commandBody P i s = .ok d ∧ t = d.state.complete (encode i) d.res0 d.res1) ∨
    (∃ e, commandBody P i s = .error e ∧ t = s.takeError (encode i) e) := by
  rw [execWith_eq_finish] at h
  cases hb : commandBody P i s with
  | ok d => exact .inl ⟨d, rfl, by rw [hb] at h; exact (Host.Outcome.next.inj h).symm⟩
  | error e => exact .inr ⟨e, rfl, by rw [hb] at h; exact (Host.Outcome.next.inj h).symm⟩

/-- The same of `exec`. -/
theorem exec_cases {i : Instr} {s t : State} (h : exec i s = .next t) :
    (∃ d, commandBody specNum i s = .ok d ∧ t = d.state.complete (encode i) d.res0 d.res1) ∨
    (∃ e, commandBody specNum i s = .error e ∧ t = s.takeError (encode i) e) :=
  execWith_cases (exec_eq_execWith i s ▸ h)

/-- No error has the success code (R251). -/
theorem code_ne_zero (e : CmdError) : e.code ≠ 0 := by
  cases e <;> simp [CmdError.code]

/-! ### Byte reads -/

/-- A byte read depends on the memory and the era alone. -/
theorem byteAt_congr {s t : State} {a : Nat} (hm : Memory.byte? s.mem a = Memory.byte? t.mem a)
    (he : s.era = t.era) : s.byteAt a = t.byteAt a := by
  simp only [State.byteAt, hm, he]

@[simp] theorem byteAt_complete (s : State) (w r0 r1 : Word) (a : Nat) :
    (s.complete w r0 r1).byteAt a = s.byteAt a := rfl

@[simp] theorem byteAt_takeError (s : State) (w : Word) (e : CmdError) (a : Nat) :
    (s.takeError w e).byteAt a = s.byteAt a := rfl

/-- What a byte reads as after a packet is stored: the packet's byte inside it, the old byte outside. -/
theorem byteAt_storePacket (s : State) (q : List Byte) (len a : Nat) :
    (s.storePacket q len).byteAt a =
      if pktBase ≤ a ∧ a < pktBase + q.length then q.getD (a - pktBase) 0 else s.byteAt a := by
  simp only [State.byteAt, storePacket_mem, storePacket_era, byte?_storeBytes]
  split
  · next h =>
    have hlt : a - pktBase < q.length := by omega
    simp [List.getD, List.getElem?_eq_getElem hlt]
  · rfl

/-- A retained frame changes no byte outside `FECBUF`'s first `n` words. -/
theorem byteAt_retainFrame_outside (s : State) (n a : Nat) (h : a < fecBase ∨ fecBase + 4 * n ≤ a) :
    (s.retainFrame n).byteAt a = s.byteAt a := by
  refine byteAt_congr ?_ rfl
  rw [retainFrame_mem]
  exact byte?_storeSamples_outside _ _ _ _ (by simpa [State.samplesFrom] using h)

@[simp] theorem length_pktBytes (s : State) (n : Nat) : (s.pktBytes n).length = n := by
  simp [State.pktBytes, State.bytesFrom]

@[simp] theorem length_frmBytes (s : State) (j n : Nat) : (s.frmBytes j n).length = n := by
  simp [State.frmBytes, State.bytesFrom]

@[simp] theorem length_smpValues (s : State) (n : Nat) : (s.smpValues n).length = n := by
  simp [State.smpValues, State.samplesFrom]

end Sys2Proof.Machine
end

