-- ==== Sys2Proof/Laws/PerInstr.lean ====
section
/-! SUPPORT. A statement about every command as syntax, one lemma per constructor. -/

namespace Sys2Proof.Laws

/-- The encoder's word is a legal command word (R83). -/
abbrev EncodedLegal.Statement (i : Instr) : Prop := (commandFields (encode i)).wellFormed = true

theorem EncodedLegal.nop : EncodedLegal.Statement .nop := by decide
theorem EncodedLegal.reset : EncodedLegal.Statement .reset := by decide
theorem EncodedLegal.vadInit : EncodedLegal.Statement .vadInit := by decide
theorem EncodedLegal.vadEval : EncodedLegal.Statement .vadEval := by decide
theorem EncodedLegal.dtxDecide : EncodedLegal.Statement .dtxDecide := by decide
theorem EncodedLegal.fecQuery : EncodedLegal.Statement .fecQuery := by decide
theorem EncodedLegal.fecRecord (wasActive : Bool) : EncodedLegal.Statement (.fecRecord wasActive) := by
  cases wasActive <;> decide
theorem EncodedLegal.fecRate : EncodedLegal.Statement .fecRate := by decide
theorem EncodedLegal.brcTarget : EncodedLegal.Statement .brcTarget := by decide
theorem EncodedLegal.brcConform : EncodedLegal.Statement .brcConform := by decide
theorem EncodedLegal.pktPad : EncodedLegal.Statement .pktPad := by decide
theorem EncodedLegal.pktCheck : EncodedLegal.Statement .pktCheck := by decide
theorem EncodedLegal.pktToc : EncodedLegal.Statement .pktToc := by decide
theorem EncodedLegal.pktBuild : EncodedLegal.Statement .pktBuild := by decide
theorem EncodedLegal.pktCn : EncodedLegal.Statement .pktCn := by decide

end Sys2Proof.Laws
end

