-- ==== Sys2Proof/Tests/Slice0.lean ====
section
/-! SUPPORT. The model's own tests. Expected values are those of spec/95_test_vectors.md (the section is named at each
test) or are worked out by hand from the rule named. After them, for every statement with hypotheses, a concrete case
that meets them (`witness_…`). -/

open Sys2Proof Sys2Proof.Machine Sys2Proof.Config

namespace Sys2Proof.Tests

-- one theorem after the other: many evaluations at once ask for more threads than the memory limit allows
set_option Elab.async false

/-! ### Well-formed words and legal accesses: an ill-formed term for each check -/

theorem test_zero_field_refused : CommandWord.wellFormed ⟨0x00, 0x00, 0x0001⟩ = false := by decide
theorem test_unknown_opcode_refused : CommandWord.wellFormed ⟨0x03, 0x00, 0x0000⟩ = false := by decide
theorem test_flag_on_nop_refused : CommandWord.wellFormed ⟨0x00, 0x01, 0x0000⟩ = false := by decide
theorem test_second_flag_on_record_refused : CommandWord.wellFormed ⟨0x31, 0x02, 0x0000⟩ = false := by decide
theorem test_flag_on_record_accepted : CommandWord.wellFormed ⟨0x31, 0x01, 0x0000⟩ = true := by decide
theorem test_narrow_access_refused : accessLegal 0x040 2 = false := by decide
theorem test_misaligned_access_refused : accessLegal 0x042 4 = false := by decide
theorem test_access_outside_the_space_refused : accessLegal 0x20000 4 = false := by decide
theorem test_last_word_of_the_space_accepted : accessLegal 0x1FFFC 4 = true := by decide

/-! ### Decoding: one word a command, written out from the table of 30_encoding.md R81 (ZERO, FLG, OPC) -/

theorem test_decode_nop : decode 0b0000000000000000_00000000_00000000 = .ok .nop := by decide
theorem test_decode_reset : decode 0b0000000000000000_00000000_00000001 = .ok .reset := by decide
theorem test_decode_vadInit : decode 0b0000000000000000_00000000_00000010 = .ok .vadInit := by decide
theorem test_decode_vadEval : decode 0b0000000000000000_00000000_00010000 = .ok .vadEval := by decide
theorem test_decode_dtxDecide : decode 0b0000000000000000_00000000_00100000 = .ok .dtxDecide := by decide
theorem test_decode_fecQuery : decode 0b0000000000000000_00000000_00110000 = .ok .fecQuery := by decide
theorem test_decode_fecRecord_inactive : decode 0b0000000000000000_00000000_00110001 = .ok (.fecRecord false) := by
  decide
theorem test_decode_fecRecord_active : decode 0b0000000000000000_00000001_00110001 = .ok (.fecRecord true) := by decide
theorem test_decode_fecRate : decode 0b0000000000000000_00000000_00110010 = .ok .fecRate := by decide
theorem test_decode_brcTarget : decode 0b0000000000000000_00000000_01000000 = .ok .brcTarget := by decide
theorem test_decode_brcConform : decode 0b0000000000000000_00000000_01000001 = .ok .brcConform := by decide
theorem test_decode_pktPad : decode 0b0000000000000000_00000000_01000010 = .ok .pktPad := by decide
theorem test_decode_pktCheck : decode 0b0000000000000000_00000000_01010000 = .ok .pktCheck := by decide
theorem test_decode_pktToc : decode 0b0000000000000000_00000000_01010001 = .ok .pktToc := by decide
theorem test_decode_pktBuild : decode 0b0000000000000000_00000000_01010010 = .ok .pktBuild := by decide
theorem test_decode_pktCn : decode 0b0000000000000000_00000000_01010011 = .ok .pktCn := by decide
theorem test_decode_second_flag : decode 0b0000000000000000_00000010_00110001 = .error .flagBits := by decide
theorem test_decode_flag_on_pad : decode 0b0000000000000000_00000001_01000010 = .error .flagBits := by decide
theorem test_decode_top_bit : decode 0b1000000000000000_00000000_00000000 = .error .zeroField := by decide
theorem test_decode_opcode_gap : decode 0b0000000000000000_00000000_00110011 = .error .unknownOpcode := by decide
theorem test_table_word : decodeTableWord 32 0x00000131 = some (.fecRecord true) := by decide

/-! ### Small states -/

/-- What a command leaves, and the reset state where it stopped (no command does). -/
def after (o : Host.Outcome State Fault Refusal) : State :=
  match o with
  | .next t => t
  | .fault _ => State.reset
  | .refused _ => State.reset

theorem exec_after (i : Instr) (s : State) : exec i s = .next (after (exec i s)) := by rw [exec_eq_finish]; rfl

/-- The state after reset with operands. -/
def operands (a0 a1 a2 : Word) : State := { State.reset with io := { resetCommand with arg0 := a0, arg1 := a1, arg2 := a2 } }

/-- A packet in `PKT`, a target, a rate mode, a capacity. -/
def packet (bs : List Byte) (target : Word) (mode : RateMode) (cap : Word) : State :=
  { operands target 0 0 with
    mem := byteCells 0x1000 bs
    cfg := { resetConfig with rateMode := mode }
    col := { resetCollab with pktLen := BitVec.ofNat 32 bs.length, outCap := cap } }

/-- A frame in `SMP` with its length, rate, flags and silence so far. -/
def frame (vs : List (BitVec 24)) (fs dur : Word) (flags : CfgFlags) : State :=
  { operands (BitVec.ofNat 32 vs.length) fs 0 with
    mem := sampleCells 0x8000 vs
    cfg := { resetConfig with flags := flags }
    dtx := { resetDtx with durQ1 := dur }
    col := { resetCollab with smpCount := BitVec.ofNat 32 vs.length } }

/-- A host access waiting. -/
def waiting (a : HostAccess) : State := { State.reset with pending := [a] }

/-- `A, A, -A, -A` twice, `A` a quarter of full scale (3.3). -/
def eight : List (BitVec 24) := [2097152, 2097152, -2097152, -2097152, 2097152, 2097152, -2097152, -2097152]

/-- `CFG_FLAGS` with `DTX_EN` alone, with `FEC_EN` alone, empty. -/
def dtxOn : CfgFlags := ⟨false, true, false, false⟩
def fecOn : CfgFlags := ⟨true, false, false, false⟩
def noFlags : CfgFlags := ⟨false, false, false, false⟩

/-- One unit's length and payload staged in slot 0, two more empty, and a capacity (7.3). -/
def staged (base units cap : Word) (bs : List Byte) : State :=
  { operands base units 0 with
    mem := byteCells 0x2000 bs
    col := { resetCollab with frmLen0 := BitVec.ofNat 16 bs.length, outCap := cap } }

/-- A state in which the next `FEC.RECORD` passes its sequence check. -/
def decided (vs : List (BitVec 24)) (flags : CfgFlags) : State :=
  { frame vs 16 0 flags with dtx := { resetDtx with stat := ⟨false, false, false, true, false, true⟩ } }

/-! ### Primitives (2.1 to 2.4) -/

theorem test_rshiftRound : (rshiftRound 3072 11, rshiftRound (-1025) 11, rshiftRound (-3) 1) = (2, -1, -1) := by decide
theorem test_mulQ16_ties : (mulQ16Round (-1) 32768, mulQ16Floor (-1) 32768, mulQ16Round 45000 300) = (0, -1, 206) := by
  decide
theorem test_mulQ16_wraps : (mulQ16Round int32Max int32Max, mulQ16Round (-2 ^ 31) 65536) = (-65536, -2 ^ 31) := by decide
theorem test_log2Approx : (log2Approx128 specNum 1000, log2Approx128 specNum 357035) = (1275, 2360) := by decide +kernel
theorem test_isqrtApprox : (isqrtApprox specNum 1000, isqrtApprox specNum 15210000) = (30, 3864) := by decide +kernel
theorem test_sigmoid15 : (sigmoid15 specNum (-160), sigmoid15 specNum (-159), sigmoid15 specNum 33) = (219, 217, 24108) := by
  decide
theorem test_split : (split specNum [8192, 8192, -8192, -8192] 0 0) = ⟨[3252, 3206], [-1904, 3415], -22270304, -11377643⟩ := by
  decide +kernel

/-! ### Commands, at most two each -/

/-- 46_system.md R230. -/
theorem test_nop : (after (exec .nop (operands 7 8 9))).io =
    { resetCommand with arg0 := 7, arg1 := 8, arg2 := 9, status := ⟨0, true⟩, cmdSeq := 1 } := by decide

/-- 46_system.md R231: the VAD record is kept. -/
theorem test_reset_keeps_vad : (after (exec .reset { State.reset with
    vad := { resetVad with counter := 900 }, dtx := { resetDtx with durQ1 := 400, peak := 5 } })).vad.counter = 900 := by
  decide

/-- 3.7. -/
theorem test_vadInit : (after (exec .vadInit { State.reset with vad := { resetVad with nl := ⟨1, 2, 3, 4⟩ } })).vad = resetVad := by
  decide

/-- 3.3, the outputs: `RES0 = 0x1FF`, `RES1 = 0xFFFF8BE8`. -/
theorem test_vadEval_results :
    ((after (exec .vadEval (frame eight 8 0 noFlags))).io.res0, (after (exec .vadEval (frame eight 8 0 noFlags))).io.res1)
      = (0x1FF, 0xFFFF8BE8) := by decide +kernel

/-- 3.3, the VAD record. -/
theorem test_vadEval_record : (after (exec .vadEval (frame eight 8 0 noFlags))).vad =
    { ana0 := ⟨-31091550, -11685943⟩, ana1 := ⟨-12456273, 7130635⟩, ana2 := ⟨2147319, 1636196⟩, hpState := 259,
      counter := 16, nl := ⟨99, 49, 31, 2391⟩, invNl := ⟨21688935, 43377871, 67777924, 897808⟩,
      nrgRatioSmthQ8 := ⟨25204, 25204, 25204, 25799⟩, noiseBias := ⟨50, 25, 16, 12⟩, xnrgSubfr := ⟨0, 0, 0, 42025⟩,
      qualityQ15 := ⟨23494, 23494, 23494, 23731⟩, saQ8 := 255, tiltQ15 := -29720, active := true } := by decide +kernel

/-- 42_dtx.md R168, by hand: 2 Q1 milliseconds of silence past the 600 ms limit set the duration to 400. -/
theorem test_dtxDecide_overflow :
    ((after (exec .dtxDecide (frame (List.replicate 8 0) 8 1199 dtxOn))).io.res0,
      (after (exec .dtxDecide (frame (List.replicate 8 0) 8 1199 dtxOn))).dtx.durQ1) = (0x08, 400) := by decide +kernel

/-- 42_dtx.md R166 to R168, by hand: a loud frame is its own peak, so active; the VAD bit is that of 3.3. -/
theorem test_dtxDecide_active :
    ((after (exec .dtxDecide (frame eight 8 400 dtxOn))).io.res0, (after (exec .dtxDecide (frame eight 8 400 dtxOn))).dtx.peak)
      = (0x14, 2 ^ 42) := by decide +kernel

/-- 5: a loss of 1 percent is enough. -/
theorem test_fecQuery : (after (exec .fecQuery { State.reset with
    cfg := { resetConfig with flags := fecOn, lossPct := 1 }, fec := { resetFec with havePrev := true } })).io.res0 = 1 := by
  decide

/-- 5, step 1: word 0x131, `FEC_STAT = 3`, the frame retained. -/
theorem test_fecRecord :
    ((after (exec (.fecRecord true) (decided eight fecOn))).io.res0,
      (after (exec (.fecRecord true) (decided eight fecOn))).sampleAt 0x10008,
      (after (exec (.fecRecord true) (decided eight fecOn))).dtx.stat.decisionValid) = (3, -2097152, false) := by
  decide +kernel

/-- 5, step 2: a second record is a `SequenceError` whose information is `DTX_STAT`. -/
theorem test_fecRecord_again :
    (after (exec (.fecRecord true) { decided eight fecOn with
      dtx := { resetDtx with stat := ⟨false, false, false, true, false, false⟩ } })).io.errInfo = 0x08 := by decide +kernel

/-- 5. -/
theorem test_fecRate : (after (exec .fecRate (operands 10002 0 0))).io.res0 = 6001 := by decide

/-- 6.1. -/
theorem test_brcTarget : (after (exec .brcTarget (operands 9999 40 0))).io.res0 = 24 := by decide
theorem test_brcTarget_saturates : (after (exec .brcTarget (operands 0xFFFFFFFF 0xFFFFFFFF 0))).io.res0 = 0xFFFFFFFF := by
  decide +kernel

/-- 44_bitrate.md R192 to R200, the packet of 6.3 under CBR. -/
theorem test_brcConform_cbr :
    ((after (exec .brcConform (packet [0x78, 0xAA, 0xBB, 0xCC] 7 .cbr 4096))).pktBytes 7,
      (after (exec .brcConform (packet [0x78, 0xAA, 0xBB, 0xCC] 7 .cbr 4096))).io.res1)
      = ([0x7B, 0x41, 0x01, 0xAA, 0xBB, 0xCC, 0x00], 1) := by decide +kernel

/-- 44_bitrate.md R192: a malformed packet below the CVBR bound (`lo` of 20 is 17) is left short and flagged. -/
theorem test_brcConform_cvbr_malformed :
    (after (exec .brcConform (packet [0x79, 0x01, 0x02, 0x03] 20 .cvbr 4096))).io.res1 = 0xA := by decide +kernel

/-- 6.3: a code 2 packet with stored lengths. -/
theorem test_pktPad : (after (exec .pktPad (packet [0x7A, 0x01, 0x11, 0x21, 0x22] 7 .vbr 4096))).pktBytes 7 =
    [0x7B, 0xC2, 0x00, 0x01, 0x11, 0x21, 0x22] := by decide +kernel

/-- 6.4. -/
theorem test_pktPad_malformed : (after (exec .pktPad (packet [0x7B, 0x41, 0x05, 0x01, 0x02] 10 .vbr 4096))).io.res1 = 2 := by
  decide +kernel

/-- 45_framer.md R210, by hand: Auto, hybrid, full, 20 ms, mono: index 15, one unit of 960. -/
theorem test_pktCheck : ((after (exec .pktCheck (operands 3 4 0))).io.res0, (after (exec .pktCheck (operands 3 4 0))).io.res1)
    = (0x178, 0x4303C0) := by decide +kernel

/-- 45_framer.md R213: LFE forces transform and narrow and reads no operand. -/
theorem test_pktCheck_lfe : (after (exec .pktCheck { operands 7 9 0 with
    cfg := { resetConfig with flags := ⟨false, false, true, false⟩ } })).io.res0 = 0x198 := by decide +kernel

/-- 45_framer.md R215: transform, full, 960, stereo. -/
theorem test_pktToc : (after (exec .pktToc { operands 2 4 960 with cfg := { resetConfig with channels := 2 } })).io.res0 = 0xFC := by
  decide +kernel

/-- 45_framer.md R216: two units, the second empty. -/
theorem test_pktBuild : (after (exec .pktBuild (staged 0x78 2 4096 [0x01, 0x02, 0x03]))).pktBytes 6 =
    [0x7B, 0x82, 0x03, 0x01, 0x02, 0x03] := by decide +kernel

/-- 45_framer.md R217. -/
theorem test_pktCn : ((after (exec .pktCn (operands 0x48 0 0))).byteAt 0x1000, (after (exec .pktCn (operands 0x48 0 0))).col.pktLen)
    = (0x48, 1) := by decide +kernel

/-! ### The port -/

/-- 60_exceptions.md R258: an illegal word. -/
theorem test_illegal_word : (after (step (waiting (.write 0x040 4 0x231)))).io =
    { resetCommand with cmd := 0x231, status := ⟨6, true⟩, errInfo := 0x231, irqPend := true, cmdSeq := 1 } := by decide +kernel
/-- 10_state.md R29: 1000 clamps to 6000, a negative value too. -/
theorem test_bitrate_clamps : ((hostWrite State.reset 0x014 1000).cfg.bitrate, (hostWrite State.reset 0x014 0xFFFFFFFF).cfg.bitrate)
    = (6000, 6000) := by decide +kernel
/-- 20_memory.md R64. -/
theorem test_sample_reads_sign_extended : hostRead (hostWrite State.reset 0x8000 0x00E00000) 0x8000 = 0xFFE00000 := by
  decide +kernel
/-- The memory of reset is canonical. -/
theorem test_reset_memory_wf : Memory.wf State.reset.mem := by decide
theorem test_withFetchWord : (after (step (State.reset.withFetchWord 32 0x131))).io.cmd = 0x131 := by decide +kernel

/-- 40_primitives.md R120: a changed parameter reaches the machine, here the noise levels and `CN_INTERVAL_Q1` after a
hardware reset and after `VAD.INIT`. -/
def changed : NumCfg := { specNum with nlInitFactor := 10, cnIntervalReset := 900 }
theorem test_changed_parameter :
    ((after (stepWith changed (waiting .hardwareReset))).vad.nl, (after (stepWith changed (waiting .hardwareReset))).cfg.cnIntervalQ1,
      (after (stepWith changed (waiting (cmd .vadInit)))).vad.nl) = (⟨500, 250, 160, 120⟩, 900, ⟨500, 250, 160, 120⟩) := by
  decide +kernel
/-- 3.3, the floor instance (R120, conflict C8), run by the same step. -/
theorem test_floor_instance :
    (fun v => (v.ana0, v.ana1, v.ana2, v.invNl, v.tiltQ15))
      (after (stepWith floorNum { frame eight 8 0 noFlags with pending := [cmd .vadEval] })).vad =
    (⟨-31091550, -11685944⟩, ⟨-12456274, 7130634⟩, ⟨2147319, 1636195⟩, ⟨21688935, 43377871, 67777924, 897807⟩, -29720) := by
  decide +kernel

/-! ### Witnesses: the hypotheses of each statement are met -/

theorem witness_StepRunsTheDecodedCommand :
    (waiting (.write 0x040 4 0x131)).pending = .write 0x040 4 0x131 :: [] ∧ decode 0x131 = .ok (.fecRecord true) := by
  decide
theorem witness_IllegalWordCompletesWithIllegalCommand :
    (waiting (.write 0x040 4 0x54)).pending = .write 0x040 4 0x54 :: [] ∧ (commandFields 0x54).wellFormed = false := by
  decide
theorem witness_CmdSeqCountsTheWritesOfCmd :
    (waiting (.write 0x040 4 0x54)).pending = .write 0x040 4 0x54 :: [] ∧
    (waiting (.read 0x060 4)).pending = .read 0x060 4 :: [] ∧ (∀ w, HostAccess.read 0x060 4 ≠ .write 0x040 4 w) ∧
    HostAccess.read 0x060 4 ≠ .hardwareReset ∧
    step (waiting (.read 0x060 4)) = .next { State.reset with port := .data 0 } :=
  ⟨rfl, rfl, by simp, by decide, rfl⟩
/-- An empty packet, under the spec's numeric configuration and under another. -/
theorem witness_FailingCommandChangesOnlyTheCompletion :
    exec .brcConform State.reset = .next (State.reset.takeError 0x41 (.badOperand 1)) ∧
    execWith floorNum .dtxDecide State.reset = .next (State.reset.takeError 0x20 (.badOperand 1)) ∧
    (State.reset.takeError 0x41 (.badOperand 1)).io.status.err ≠ 0 ∧
    (State.reset.takeError 0x20 (.badOperand 1)).io.status.err ≠ 0 := ⟨rfl, rfl, by decide, by decide⟩
theorem witness_CommandsKeepTheHostsRegisters : exec .nop State.reset = .next (State.reset.complete 0 0 0) := rfl
theorem witness_RecordsAreWrittenByTheirCommands : exec .nop State.reset = .next (State.reset.complete 0 0 0) ∧
    Instr.nop ≠ .vadInit ∧ Instr.nop ≠ .vadEval ∧ Instr.nop ≠ .dtxDecide ∧ Instr.nop ≠ .reset ∧
    ∀ b, Instr.nop ≠ .fecRecord b := ⟨rfl, by decide, by decide, by decide, by decide, by decide⟩
theorem witness_BuffersAreWrittenByTheirCommands : CollabOk State.reset.col ∧
    exec .nop State.reset = .next (State.reset.complete 0 0 0) ∧ Instr.nop ≠ .pktPad ∧ Instr.nop ≠ .brcConform ∧
    Instr.nop ≠ .pktBuild ∧ Instr.nop ≠ .pktCn ∧ ∀ b, Instr.nop ≠ .fecRecord b :=
  ⟨⟨by decide, by decide, by decide, by decide⟩, rfl, by decide, by decide, by decide, by decide, by decide⟩

theorem vadOk_reset : VadOk resetVad :=
  ⟨by decide, by decide, by decide, by decide, by decide, by decide, by decide⟩

theorem witness_EveryStepKeepsTheInvariant : Inv (waiting (.write 0x040 4 0)) ∧
    step (waiting (.write 0x040 4 0)) = .next (({ State.reset with port := .written } : State).complete 0 0 0) :=
  ⟨⟨⟨by decide, by decide, by decide, by decide, by decide, by decide, by decide, by decide⟩,
    ⟨by decide, by decide, by decide, by decide⟩, vadOk_reset, ⟨by decide, by decide, by decide, by decide, by decide⟩,
    ⟨by decide, by decide⟩, ⟨List.Pairwise.nil, by simp [waiting, State.reset]⟩⟩, rfl⟩
theorem witness_RangesHoldUnderEveryHostScript :
    Sys2Proof.core.run 1 (withScript [cmd .nop]) = .next (({ State.reset with port := .written } : State).complete 0 0 0) := rfl
theorem witness_LegalScriptsAlwaysRunToTheirEnd :
    scriptLegal [.write 0x1FFFC 4 0, .read 0x000 4, .hardwareReset, cmd (.fecRecord true)] = true := by decide

/-- The three ways an access is bad, each next to a legal one. -/
theorem witness_BadBusAccessIsRefused :
    (3 ≠ 4 ∧ (waiting (.read 0x040 3)).pending = .read 0x040 3 :: []) ∧
    (0x041 % 4 ≠ 0 ∧ (waiting (.write 0x041 4 0)).pending = .write 0x041 4 0 :: []) ∧
    (0x20000 ≤ 0x20000 ∧ (waiting (.read 0x20000 4)).pending = .read 0x20000 4 :: []) := by decide
/-- A read and a write at both ends of the space and beside `CMD`; the first and last word of every buffer. -/
theorem witness_HostReadHasNoSideEffect :
    (∀ a ∈ [0, 0x03C, 0x044, 0x1FFFC], a % 4 = 0 ∧ a < 0x20000 ∧ a ≠ 0x040 ∧
      (waiting (.read a 4)).pending = .read a 4 :: [] ∧ (waiting (.write a 4 7)).pending = .write a 4 7 :: []) ∧
    (∀ a ∈ [0x1000, 0x1FFC, 0x2000, 0x2EFC], a % 4 = 0 ∧ 0x1000 ≤ a ∧ a < 0x2F00) ∧
    (∀ a ∈ [0x8000, 0xD9FC], a % 4 = 0 ∧ 0x8000 ≤ a ∧ a < 0xDA00) ∧
    (∀ a ∈ [0x10000, 0x159FC], a % 4 = 0 ∧ 0x10000 ≤ a ∧ a < 0x15A00) := by decide
/-- What the reads answer on a record whose fields differ, at the addresses of the table of 20_memory.md. -/
theorem test_views_are_at_their_addresses :
    [0x100, 0x114, 0x12C, 0x13C, 0x150, 0x17C].map (hostRead { State.reset with vad := { resetVad with
        ana0 := ⟨1, 2⟩, ana2 := ⟨3, 4⟩, nl := ⟨5, 6, 7, 8⟩, invNl := ⟨9, 10, 11, 12⟩, noiseBias := ⟨13, 14, 15, 16⟩,
        qualityQ15 := ⟨17, 18, 19, 20⟩ } }) = [1, 4, 8, 12, 13, 20] ∧
    [0x1A8, 0x1AC, 0x1B8, 0x1BC].map (hostRead { State.reset with dtx := { resetDtx with
        peak := 0x2000000001, energy := 0x4000000003 } }) = [1, 0x20, 3, 0x40] := by decide +kernel
theorem witness_RegisterWriteChangesOnlyThatRegister : Reg.arg0 ≠ .cmd ∧ Reg.arg1 ≠ Reg.arg0 ∧
    (Reg.vadAna0 0 ≠ .cmd ∧ 0x100 ≤ (Reg.vadAna0 0).addr) ∧ (Reg.fecFrameCount ≠ .cmd ∧ 0x100 ≤ Reg.fecFrameCount.addr) := by
  decide
theorem witness_InterruptIsPendingUnderEnableAndWriteOneToClear : (1 : Word).getLsbD 0 = true := by decide
/-- The first and the last word of `PKT` and of `FRM`. -/
theorem witness_ByteBufferWordsAreLittleEndian : ∀ a ∈ [0x1000, 0x1FFC, 0x2000, 0x2EFC],
    a % 4 = 0 ∧ ((0x1000 ≤ a ∧ a < 0x2000) ∨ (0x2000 ≤ a ∧ a < 0x2F00)) := by decide
theorem witness_SampleWordsHoldTwentyFourBits : 0 < 5760 ∧ 5759 < 5760 := by decide
/-- The first and the last word of every reserved range, and of `FECBUF`; none is in the other clause. -/
theorem witness_ReservedAndRetainedAddressesIgnoreWrites :
    (∀ a ∈ [0x30, 0x3C, 0x6C, 0x7C, 0x98, 0x9C, 0xAC, 0xFC, 0x18C, 0x19C, 0x1CC, 0xFFC, 0x2F00, 0x7FFC, 0xDA00, 0xFFFC,
        0x15A00, 0x1FFFC], a % 4 = 0 ∧ target a = .reserved) ∧
    (∀ a ∈ [0x10000, 0x159FC], a % 4 = 0 ∧ 0x10000 ≤ a ∧ a < 0x15A00 ∧ target a = .retained) := by decide +kernel
theorem witness_HardwareResetRestoresEveryRegister : (waiting .hardwareReset).pending = .hardwareReset :: [] := by decide

/-- `n` zero samples in a window of `cap`, to be taken at `fs` kHz. -/
def window (n fs cap : Word) : State :=
  { operands n fs 0 with col := { resetCollab with smpCount := cap } }

/-- One state a clause: empty frame, rate 7, 968 and 4 samples, an under-length window, 8 and 960 samples. -/
theorem witness_VadEvalAdmissionInOrder :
    ((window 0 7 0).io.arg0.toNat = 0) ∧
    ((window 8 7 8).io.arg0.toNat ≠ 0 ∧ (window 8 7 8).io.arg1.toNat ∉ [8, 12, 16, 24, 48]) ∧
    (∀ s ∈ [window 968 48 968, window 4 8 4], s.io.arg0.toNat ≠ 0 ∧ s.io.arg1.toNat ∈ [8, 12, 16, 24, 48] ∧
      (960 < s.io.arg0.toNat ∨ s.io.arg0.toNat % 8 ≠ 0)) ∧
    (∀ s ∈ [window 8 8 7, window 960 48 959], s.io.arg0.toNat ≠ 0 ∧ s.io.arg1.toNat ∈ [8, 12, 16, 24, 48] ∧
      s.io.arg0.toNat ≤ 960 ∧ s.io.arg0.toNat % 8 = 0 ∧ s.col.smpCount.toNat < s.io.arg0.toNat) ∧
    (∀ s ∈ [window 8 8 8, window 960 48 5760], s.io.arg0.toNat ≠ 0 ∧ s.io.arg1.toNat ∈ [8, 12, 16, 24, 48] ∧
      s.io.arg0.toNat ≤ 960 ∧ s.io.arg0.toNat % 8 = 0 ∧ s.io.arg0.toNat ≤ s.col.smpCount.toNat) := by decide

/-- The record of 3.3, and the hypotheses of the splitter's clause on the first pair of its samples. -/
theorem witness_VadFrameUpdatesNoiseCounterAndActivity :
    (after (exec .vadEval (frame eight 8 0 noFlags))).vad = vadFrame specNum resetVad 8 ((frame eight 8 0 noFlags).smpValues 8) ∧
    (frame eight 8 0 noFlags).smpValues 8 =
      [2097152, 2097152, -2097152, -2097152, 2097152, 2097152, -2097152, -2097152] ∧
    wrap32 (8192 * 1024 - 0) = 8388608 ∧ wrap32 (8388608 + mulQ16Round 8388608 (-24290)) = 5279488 ∧
    wrap32 (0 + 5279488) = 5279488 ∧ mulQ16Round 8388608 10788 = 1380864 ∧ wrap32 (0 + 1380864) = 1380864 ∧
    split specNum [] (wrap32 (8192 * 1024 + 5279488)) (wrap32 (8192 * 1024 + 1380864)) = ⟨[], [], 13668096, 9769472⟩ := by
  decide +kernel
theorem witness_VadFrameKeepsTheRangesUnderBothMultiplies :
    (floorNum = specNum ∨ floorNum = floorNum) ∧ (List.replicate 960 (0 : Int)).length ≤ 960 ∧ VadOk resetVad :=
  ⟨.inr rfl, (List.length_replicate).le, vadOk_reset⟩

/-- Rate 10; 0, 968 and 4 samples; windows one sample short. -/
theorem witness_DtxDecideAdmissionInOrder :
    ((window 8 10 8).io.arg1.toNat ∉ [8, 12, 16, 24, 48]) ∧
    (∀ s ∈ [window 0 8 8, window 968 48 968, window 4 8 4], s.io.arg1.toNat ∈ [8, 12, 16, 24, 48] ∧
      (s.io.arg0.toNat = 0 ∨ 960 < s.io.arg0.toNat ∨ s.io.arg0.toNat % 8 ≠ 0)) ∧
    (∀ s ∈ [window 8 8 7, window 960 48 959], s.io.arg1.toNat ∈ [8, 12, 16, 24, 48] ∧ s.io.arg0.toNat ≠ 0 ∧
      s.io.arg0.toNat ≤ 960 ∧ s.io.arg0.toNat % 8 = 0 ∧ s.col.smpCount.toNat < s.io.arg0.toNat) := by decide

/-- The hypotheses of `DtxDecideRunsTheStateMachine` on a frame of 8 samples at 8 kHz. -/
abbrev dtxHypotheses (s : State) (e peak : Nat) (silence active : Bool) : Prop :=
  8 = s.io.arg0.toNat ∧ 8 = s.io.arg1.toNat ∧ 8 ∈ [8, 12, 16, 24, 48] ∧ 8 ≠ 0 ∧ 8 ≤ 960 ∧ 8 % 8 = 0 ∧
    8 ≤ s.col.smpCount.toNat ∧ 2 = 2 * 8 / 8 ∧
    (silence = true ↔ ∀ x ∈ s.smpValues 8, 2 * x.natAbs < 2 ^ (24 - s.cfg.lsbDepth.toNat)) ∧
    e = ((s.smpValues 8).map (fun x => x.natAbs * x.natAbs)).sum / 8 ∧
    peak = (if silence = false ∧ ¬(s.col.anaValid = true ∧ s.col.anaProbQ15.toNat < 3277)
      then max (s.dtx.peak.toNat * 32735 / 32768) e else s.dtx.peak.toNat) ∧
    (active = true ↔ silence = false ∧
      ((s.col.anaValid = true ∧ (3277 ≤ s.col.anaProbQ15.toNat ∨ peak * 256 < 80955 * e)) ∨
        (s.col.anaValid = false ∧ peak * 384 < 80955 * e)))

/-- Silence at the threshold (398 + 2), past it, at the limit, past the limit. -/
theorem witness_DtxDecideRunsTheStateMachine_silence :
    dtxHypotheses (frame (List.replicate 8 0) 8 398 dtxOn) 0 0 true false ∧
    dtxHypotheses (frame (List.replicate 8 0) 8 399 dtxOn) 0 0 true false ∧
    dtxHypotheses (frame (List.replicate 8 0) 8 1198 dtxOn) 0 0 true false ∧
    dtxHypotheses (frame (List.replicate 8 0) 8 1199 dtxOn) 0 0 true false := by
  refine ⟨?_, ?_, ?_, ?_⟩ <;> refine ⟨?_, ?_, ?_, ?_, ?_, ?_, ?_, ?_, ?_, ?_, ?_, ?_⟩ <;> decide +kernel
/-- Activity, with DTX enabled and disabled. -/
theorem witness_DtxDecideRunsTheStateMachine_active :
    dtxHypotheses (frame eight 8 400 dtxOn) (2 ^ 42) (2 ^ 42) false true ∧
    dtxHypotheses (frame eight 8 400 noFlags) (2 ^ 42) (2 ^ 42) false true := by
  refine ⟨?_, ?_⟩ <;> refine ⟨?_, ?_, ?_, ?_, ?_, ?_, ?_, ?_, ?_, ?_, ?_, ?_⟩ <;> decide +kernel
theorem witness_DtxNeverSuppressesBeforeTheThreshold :
    exec .dtxDecide (frame (List.replicate 8 0) 8 399 dtxOn) =
      .next (after (exec .dtxDecide (frame (List.replicate 8 0) 8 399 dtxOn))) ∧
    (after (exec .dtxDecide (frame (List.replicate 8 0) 8 399 dtxOn))).io.status.err = 0 ∧
    (after (exec .dtxDecide (frame (List.replicate 8 0) 8 399 dtxOn))).dtx.stat.inDtx = true :=
  ⟨exec_after _ _, by decide +kernel, by decide +kernel⟩
/-- Eight silent samples, DTX enabled, and 601 decisions pending. -/
def silent : State :=
  { frame (List.replicate 8 0) 8 0 dtxOn with pending := List.replicate (600 + 1) (.write 0x040 4 0x20) }
/-- The last decision within 600 ms: `d = 2`, `k = 600`, so that `(k + 1) d` is past them. -/
theorem witness_ContinuousSilenceEntersAndLeavesSuppression :
    silent.cfg.flags.dtxEn = true ∧ silent.dtx.durQ1 = 0 ∧ silent.dtx.stat.inDtx = false ∧ silent.io.arg0.toNat = 8 ∧
    silent.io.arg1.toNat = 8 ∧ 8 ∈ [8, 12, 16, 24, 48] ∧ 8 ≠ 0 ∧ 8 ≤ 960 ∧ 8 % 8 = 0 ∧ 8 ≤ silent.col.smpCount.toNat ∧
    (∀ i, i < 8 → silent.sampleAt (0x8000 + 4 * i) = 0) ∧ 2 = 2 * 8 / 8 ∧
    silent.pending = List.replicate (600 + 1) (.write 0x040 4 0x20) ∧ 600 * 2 ≤ 1200 ∧ 1200 < (600 + 1) * 2 := by
  refine ⟨?_, ?_, ?_, ?_, ?_, ?_, ?_, ?_, ?_, ?_, ?_, ?_, rfl, ?_, ?_⟩ <;> decide +kernel

theorem witness_FecRecordRetainsTheFrame :
    8 = (decided eight fecOn).io.arg0.toNat ∧ 8 ≠ 0 ∧ 8 ≤ 5760 ∧ 8 ≤ (decided eight fecOn).col.smpCount.toNat ∧
    (decided eight fecOn).dtx.stat.decisionValid = true ∧ (decided eight fecOn).dtx.stat.lastSuppress = false ∧
    (decided eight fecOn).cfg.flags.fecEn = true ∧ (decided eight noFlags).cfg.flags.fecEn = false := by decide +kernel
/-- Lengths 0, 5761 and one above the window; then a legal length without a decision, and after a suppressed one. -/
theorem witness_FecRecordChecksOperandThenSequence :
    (∀ s ∈ [window 0 16 8, window 5761 16 5760, window 8 16 7],
      s.io.arg0.toNat = 0 ∨ 5760 < s.io.arg0.toNat ∨ s.col.smpCount.toNat < s.io.arg0.toNat) ∧
    (∀ s ∈ [window 5760 16 5760, { decided eight fecOn with
        dtx := { resetDtx with stat := ⟨true, true, false, false, true, true⟩ } }],
      s.io.arg0.toNat ≠ 0 ∧ s.io.arg0.toNat ≤ 5760 ∧ s.io.arg0.toNat ≤ s.col.smpCount.toNat ∧
      (s.dtx.stat.decisionValid = false ∨ s.dtx.stat.lastSuppress = true)) := by decide +kernel

theorem witness_LengthFieldRoundTrip : (251 ≤ 1275 ∧ decLen (encLen 251) = some (251, 1)) ∧
    (252 ≤ 1275 ∧ decLen (encLen 252) = some (252, 2)) ∧ (1275 ≤ 1275 ∧ decLen (encLen 1275) = some (1275, 2)) ∧
    (251 : Byte).toNat ≤ 251 ∧ 251 < (252 : Byte).toNat := by decide +kernel
/-- The examples of 30_encoding.md R89. -/
theorem test_encLen : [251, 252, 255, 256, 507, 508, 1275].map encLen =
    [[0xFB], [0xFC, 0x00], [0xFF, 0x00], [0xFC, 0x01], [0xFF, 0x3F], [0xFC, 0x40], [0xFF, 0xFF]] := by decide +kernel
theorem witness_PaddingFieldReachesTheOverhead : 1 ≤ 1 ∧ readPadLen (padField 256) = some (254, 2) ∧
    (0 = (255 - 1) / 255 ∧ 254 = 255 - 1 - 255 * 0) ∧ (1 = (256 - 1) / 255 ∧ 0 = 256 - 1 - 255 * 1) ∧
    (254 : Byte).toNat ≠ 255 ∧ (255 : Byte).toNat = 255 := by decide +kernel
theorem witness_SigmoidSaturatesAndDecreasesExactlyTwice : (0 ≤ (0 : Int) ∧ (0 : Int) < 32) ∧ (0 ≤ (31 : Int) ∧ (31 : Int) < 32) ∧
    192 ≤ (192 : Int) ∧ (-192 : Int) ≤ -192 := by decide
/-- Also for `ReframedPacketParsesToTheSameFrames`: frames of 1 and 2 bytes, and a packet whose frames are equal. -/
theorem witness_ReframingReachesEveryLargerSizeExactly :
    (parsePacket [0x7A, 0x01, 0x11, 0x21, 0x22] = some ⟨0x7A, [1, 2], 2⟩ ∧ [0x7A, 0x01, 0x11, 0x21, 0x22].length < 6) ∧
    (parsePacket [0x79, 0x11, 0x22] = some ⟨0x79, [1, 1], 1⟩ ∧ [0x79, 0x11, 0x22].length < 4) := by decide +kernel
/-- A packet for each clause on parsing: frame codes 0, 1, 2, 3; a code 2 length cut short and one that is 2 bytes; a code
3 packet of the TOC alone, with no frames, with its padding length cut short, with more padding than bytes; with equal
frames and padding; with one stored length, and with it cut short. -/
theorem witness_ReframingReachesEveryLargerSizeExactly_parse :
    ([0x78, 0x79, 0x7A, 0x7B] : List Byte).map (fun toc => (toc.extractLsb' 0 2).toNat) = [0, 1, 2, 3] ∧
    decLen [] = none ∧ decLen [252, 0] = some (252, 2) ∧
    ((0x40 : Byte).extractLsb' 0 6).toNat = 0 ∧ ((0x41 : Byte).getLsbD 6 = true ∧ readPadLen [255] = none) ∧
    (((0x41 : Byte).extractLsb' 0 6).toNat ≠ 0 ∧ readPadLen [9] = some (9, 1) ∧ ([0x7B, 0x41, 9] : List Byte).length < 9 + 3) ∧
    ((0x42 : Byte).getLsbD 7 = false ∧ readPadLen [1, 5, 6, 0] = some (1, 1) ∧
      5 + 1 = ([0x7B, 0x42, 1, 5, 6, 0] : List Byte).length ∧ 3 ≤ 5) ∧
    ((0x82 : Byte).getLsbD 7 = true ∧ (0x82 : Byte).getLsbD 6 = false ∧ readLens (2 - 1) [1, 5, 6] = some ([1], 1) ∧
      readLens (2 - 1) [252] = none) := by decide +kernel
/-- 44_bitrate.md R197, by hand: one packet that parses and one that does not, for each frame code. -/
theorem test_parsePacket :
    ([[0x78], [0x79, 1, 2], [0x79, 1], [0x7A, 1, 5, 6, 7], [0x7A, 2, 5], [0x7B, 0x42, 1, 5, 6, 0], [0x7B, 0x42, 1, 5, 0],
      [0x7B, 0x82, 1, 5, 6], [0x7B, 0x82, 3, 5, 6]] : List (List Byte)).map parsePacket =
    [some ⟨0x78, [0], 1⟩, some ⟨0x79, [1, 1], 1⟩, none, some ⟨0x7A, [1, 2], 2⟩, none, some ⟨0x7B, [1, 1], 3⟩, none,
      some ⟨0x7B, [1, 1], 3⟩, none] := by decide +kernel
theorem witness_ReframedPacketParsesToTheSameFrames :
    parsePacket [0x7A, 0x01, 0x11, 0x21, 0x22] = some ⟨0x7A, [1, 2], 2⟩ ∧ [0x7A, 0x01, 0x11, 0x21, 0x22].length < 7 := by
  decide +kernel
theorem witness_BuiltPacketParsesToItsUnits :
    (0x78 : Byte).extractLsb' 0 2 = 0 ∧ (∀ units ∈ [[[]], [[1], []], [[1], [], ([2, 3] : List Byte)]],
      1 ≤ units.length ∧ units.length ≤ 3 ∧ ∀ u ∈ units, u.length ≤ 1275) := by decide

theorem witness_BrcConformErrorsInOrder :
    ({ packet [0x78] 1 .cbr 4096 with col := { resetCollab with subencStatus := 5 } } : State).col.subencStatus ≠ 0 ∧
    4096 < (packet [0x78] 4097 .cbr 4096).io.arg0.toNat ∧
    ((packet [] 4096 .cbr 4096).io.arg0.toNat ≤ 4096 ∧ (packet [] 4096 .cbr 4096).col.pktLen = 0) ∧
    ((packet [0x78, 0x01] 1 .cbr 4096).col.subencStatus = 0 ∧ (packet [0x78, 0x01] 1 .cbr 4096).col.pktLen ≠ 0 ∧
      (packet [0x78, 0x01] 1 .cbr 4096).cfg.rateMode = .cbr ∧
      (packet [0x78, 0x01] 1 .cbr 4096).io.arg0.toNat < (packet [0x78, 0x01] 1 .cbr 4096).col.pktLen.toNat) := by decide
/-- VBR at 1 byte, CBR at the target, CVBR at the lower bound (17 of 20) and above the upper (1 of 0); too small. -/
theorem witness_BrcConformPassesThrough :
    (∀ s ∈ [packet [0x78] 0 .vbr 1, packet [0x78, 0x01] 2 .cbr 1, packet (List.replicate 17 0x78) 20 .cvbr 17,
        packet [0x78] 0 .cvbr 0],
      s.col.subencStatus = 0 ∧ s.io.arg0.toNat ≤ 4096 ∧ s.col.pktLen.toNat ≠ 0 ∧
      (s.cfg.rateMode = .vbr ∨ (s.cfg.rateMode = .cbr ∧ s.col.pktLen.toNat = s.io.arg0.toNat) ∨
        (s.cfg.rateMode = .cvbr ∧ 17 * s.io.arg0.toNat / 20 ≤ s.col.pktLen.toNat))) := by decide +kernel
/-- A goal that fits exactly, one above the buffer, and malformed packets under CBR and CVBR. -/
theorem witness_BrcConformPadsToTheGoal :
    (∀ p ∈ [(packet [0x78, 0x01] 3 .cbr 3, 3), (packet [0x78, 0x01] 4 .cvbr 3, 3), (packet [0x78, 0x01] 3 .cbr 2, 3),
        (packet [0x79, 0x01] 3 .cbr 3, 3), (packet [0x79, 0x01] 4 .cvbr 3, 3)],
      p.1.col.subencStatus = 0 ∧ p.1.io.arg0.toNat ≤ 4096 ∧ p.1.col.pktLen.toNat ≠ 0 ∧
      ((p.1.cfg.rateMode = .cbr ∧ p.2 = p.1.io.arg0.toNat) ∨ (p.1.cfg.rateMode = .cvbr ∧ p.2 = 17 * p.1.io.arg0.toNat / 20)) ∧
      p.1.col.pktLen.toNat < p.2) ∧
    parsePacket ((packet [0x78, 0x01] 3 .cbr 3).pktBytes 2) = some ⟨0x78, [1], 1⟩ ∧
    parsePacket ((packet [0x79, 0x01] 3 .cbr 3).pktBytes 2) = none := by decide +kernel
theorem witness_SuccessfulConformMeetsTheRateMode :
    exec .brcConform (packet [0x78, 0x01] 3 .cbr 3) = .next (after (exec .brcConform (packet [0x78, 0x01] 3 .cbr 3))) ∧
    (after (exec .brcConform (packet [0x78, 0x01] 3 .cbr 3))).io.status.err = 0 :=
  ⟨exec_after _ _, by decide +kernel⟩
/-- One state a clause, in the statement's order, at the boundaries of the target and of the capacity. -/
theorem witness_PktPadCaseByCase :
    4096 < (packet [0x78] 4097 .vbr 4096).io.arg0.toNat ∧
    ((packet [] 4096 .vbr 4096).io.arg0.toNat ≤ 4096 ∧ (packet [] 4096 .vbr 4096).col.pktLen.toNat = 0) ∧
    ((packet [0x78] 1 .vbr 0).col.pktLen.toNat ≠ 0 ∧ (packet [0x78] 1 .vbr 0).io.arg0.toNat ≤ 1) ∧
    (1 < (packet [0x78] 2 .vbr 1).io.arg0.toNat ∧ (packet [0x78] 2 .vbr 1).col.outCap.toNat < 2) ∧
    ((packet [0x79, 0x01] 3 .vbr 3).io.arg0.toNat ≤ (packet [0x79, 0x01] 3 .vbr 3).col.outCap.toNat ∧
      parsePacket ((packet [0x79, 0x01] 3 .vbr 3).pktBytes 2) = none) ∧
    ((packet [0x78, 0x01] 3 .vbr 3).io.arg0.toNat ≤ (packet [0x78, 0x01] 3 .vbr 3).col.outCap.toNat ∧
      parsePacket ((packet [0x78, 0x01] 3 .vbr 3).pktBytes 2) = some ⟨0x78, [1], 1⟩) := by decide +kernel
theorem witness_PktPadIsIdempotent :
    exec .pktPad (packet [0x78] 2 .vbr 2) = .next (after (exec .pktPad (packet [0x78] 2 .vbr 2))) ∧
    (after (exec .pktPad (packet [0x78] 2 .vbr 2))).io.status.err = 0 ∧
    exec .pktPad (after (exec .pktPad (packet [0x78] 2 .vbr 2))) =
      .next (after (exec .pktPad (after (exec .pktPad (packet [0x78] 2 .vbr 2))))) :=
  ⟨exec_after _ _, by decide +kernel, exec_after _ _⟩

/-- Auto with the three plans (one, two and three units), the configured mode, LFE. -/
theorem witness_PktCheckPlansTheValidPacket :
    (∀ f ∈ [(960, 1, 960), (1920, 2, 960), (2880, 3, 960)],
      (f.1 : Nat) ∈ validSizes .auto ∧ f.2.2 ∈ unitSet .transform ∧ Bandwidth.full ∈ bwSet .transform) ∧
    (operands 2 4 0).cfg.mode = .auto ∧ Coder.transform.code = (operands 2 4 0).io.arg0 ∧
    Bandwidth.full.code = (operands 2 4 0).io.arg1 ∧ (operands 2 4 0).cfg.frameSize.toNat ∈ validSizes (operands 2 4 0).cfg.mode ∧
    (operands 2 4 0).cfg.frameSize ≠ 1920 ∧ (operands 2 4 0).cfg.frameSize ≠ 2880 ∧ 960 = (operands 2 4 0).cfg.frameSize.toNat ∧
    Mode.speech.code = Coder.speech.code ∧ 480 ∈ validSizes .speech ∧ 480 ∈ unitSet .transform ∧ Bandwidth.narrow ∈ bwSet .transform := by
  decide +kernel
/-- Operand 5, coder 0 and 4 under Auto, a size no mode has, a unit the coder lacks, a bandwidth it lacks. -/
theorem witness_PktCheckErrorsInOrder :
    4 < (operands 0 5 0).io.arg1.toNat ∧ ((operands 0 4 0).io.arg1.toNat ≤ 4 ∧ (operands 0 4 0).io.arg0.toNat ∉ [1, 2, 3]) ∧
    (operands 4 4 0).io.arg0.toNat ∉ [1, 2, 3] ∧
    ((operands 1 4 0).io.arg0.toNat ∈ [1, 2, 3] ∧ 100 ∉ validSizes .auto) ∧
    (effectiveCoder (operands 1 4 0) = some .speech ∧ effectiveBandwidth (operands 1 4 0) = some .full ∧
      120 ∈ validSizes .auto ∧ (expand .auto 120).2 ∉ unitSet .speech) ∧
    ((operands 1 4 0).cfg.frameSize.toNat ∈ validSizes (operands 1 4 0).cfg.mode ∧
      (expand (operands 1 4 0).cfg.mode (operands 1 4 0).cfg.frameSize.toNat).2 ∈ unitSet .speech ∧
      Bandwidth.full ∉ bwSet .speech) := by decide +kernel
theorem witness_PktTocLooksUpTheTable :
    (Coder.transform.code = (operands 2 4 960).io.arg0 ∧ Bandwidth.full.code = (operands 2 4 960).io.arg1 ∧
      (operands 2 4 960).io.arg2.toNat ∈ unitSet .transform ∧ Bandwidth.full ∈ bwSet .transform) ∧
    ((operands 0 4 960).io.arg0.toNat ∉ [1, 2, 3] ∧ (operands 4 4 960).io.arg0.toNat ∉ [1, 2, 3]) ∧
    ((operands 3 5 960).io.arg0.toNat ∈ [1, 2, 3] ∧ 4 < (operands 3 5 960).io.arg1.toNat) ∧
    (Coder.hybrid.code = (operands 3 4 961).io.arg0 ∧ (operands 3 4 961).io.arg1.toNat ≤ 4 ∧
      (operands 3 4 961).io.arg2.toNat ∉ unitSet .hybrid) ∧
    (Coder.hybrid.code = (operands 3 2 960).io.arg0 ∧ Bandwidth.wide.code = (operands 3 2 960).io.arg1 ∧
      (operands 3 2 960).io.arg2.toNat ∈ unitSet .hybrid ∧ Bandwidth.wide ∉ bwSet .hybrid) := by decide +kernel
/-- The hypotheses of `PktBuildWritesThePacket` on `m` units. -/
abbrev buildHypotheses (s : State) (m : Word) : Prop :=
  s.io.arg1 = m ∧ s.io.arg0.extractLsb' 8 24 = 0 ∧ s.io.arg0.extractLsb' 0 2 = 0 ∧ s.col.subencStatus = 0 ∧
    s.col.frmLen0.toNat ≤ 1275 ∧ s.col.frmLen1.toNat ≤ 1275 ∧ s.col.frmLen2.toNat ≤ 1275
/-- One, two and three units; a packet that fits exactly and one that does not. -/
theorem witness_PktBuildWritesThePacket :
    buildHypotheses (staged 0x78 1 4 [1, 2, 3]) 1 ∧ buildHypotheses (staged 0x78 2 6 [1, 2, 3]) 2 ∧
    buildHypotheses (staged 0x78 3 7 [1, 2, 3]) 3 := by
  refine ⟨?_, ?_, ?_⟩ <;> decide
theorem witness_PktBuildWritesThePacket_size :
    2 + 1 + (3 + 0) ≤ (staged 0x78 2 6 [1, 2, 3]).col.outCap.toNat ∧
    (staged 0x78 2 5 [1, 2, 3]).col.outCap.toNat < 2 + 1 + (3 + 0) := by decide
/-- `PKT.BUILD` with a base, units, a status and three lengths. -/
def building (base units st : Word) (l0 l1 l2 : BitVec 16) : State :=
  { operands base units 0 with
    col := { resetCollab with subencStatus := st, frmLen0 := l0, frmLen1 := l1, frmLen2 := l2 } }

/-- A failed sub-encoder; bit 8 and bit 0 of the base; 0 and 4 units; 1276 bytes in the first, second, third slot. -/
theorem witness_PktBuildChecksInOrder :
    ((building 0x78 1 5 0 0 0).col.subencStatus ≠ 0) ∧
    (∀ s ∈ [building 0x178 1 0 0 0 0, building 0x79 1 0 0 0 0],
      s.col.subencStatus = 0 ∧ (s.io.arg0.extractLsb' 8 24 ≠ 0 ∨ s.io.arg0.extractLsb' 0 2 ≠ 0)) ∧
    (∀ s ∈ [building 0x78 0 0 0 0 0, building 0x78 4 0 0 0 0], s.col.subencStatus = 0 ∧
      s.io.arg0.extractLsb' 8 24 = 0 ∧ s.io.arg0.extractLsb' 0 2 = 0 ∧ (s.io.arg1.toNat < 1 ∨ 3 < s.io.arg1.toNat)) ∧
    (∀ s ∈ [building 0x78 1 0 1276 0 0, building 0x78 2 0 1275 1276 0, building 0x78 3 0 1275 1275 1276],
      s.col.subencStatus = 0 ∧ s.io.arg0.extractLsb' 8 24 = 0 ∧ s.io.arg0.extractLsb' 0 2 = 0 ∧ 1 ≤ s.io.arg1.toNat ∧
      s.io.arg1.toNat ≤ 3) ∧
    1275 < (building 0x78 1 0 1276 0 0).col.frmLen0.toNat ∧
    ((building 0x78 2 0 1275 1276 0).col.frmLen0.toNat ≤ 1275 ∧ 2 ≤ (building 0x78 2 0 1275 1276 0).io.arg1.toNat ∧
      1275 < (building 0x78 2 0 1275 1276 0).col.frmLen1.toNat) ∧
    ((building 0x78 3 0 1275 1275 1276).col.frmLen0.toNat ≤ 1275 ∧
      (building 0x78 3 0 1275 1275 1276).col.frmLen1.toNat ≤ 1275 ∧ (building 0x78 3 0 1275 1275 1276).io.arg1.toNat = 3 ∧
      1275 < (building 0x78 3 0 1275 1275 1276).col.frmLen2.toNat) := by decide
theorem witness_PktCnWritesOneByte :
    ((operands 0x148 0 0).io.arg0.extractLsb' 8 24 ≠ 0 ∧ (operands 0x4B 0 0).io.arg0.extractLsb' 0 2 ≠ 0) ∧
    ((staged 0x48 0 0 []).io.arg0.extractLsb' 8 24 = 0 ∧ (staged 0x48 0 0 []).io.arg0.extractLsb' 0 2 = 0 ∧
      (staged 0x48 0 0 []).col.outCap = 0) ∧
    ((staged 0x48 0 1 []).io.arg0.extractLsb' 8 24 = 0 ∧ (staged 0x48 0 1 []).col.outCap ≠ 0) := by decide

end Sys2Proof.Tests
end

section
/-! PROOFS. Family 00_scope.md: a step on a write of `CMD` (R16, R69, R80) and the frame of a failing command (R12, R261),
both over every numeric configuration (R120). -/

namespace Sys2Proof.Machine

open Sys2Proof.Config

/-! ### A write of `CMD` as the next host access -/

/-- The port takes a 32-bit write of `CMD`; the command starts with the access consumed and answered (R16, R69). -/
theorem serve_write_cmd (P : NumCfg) {s : State} {w : Word} {rest : List HostAccess}
    (hp : s.pending = .write 0x040 4 w :: rest) :
    serve P s = .command w { s with pending := rest, port := .written } := by
  have hlegal : accessLegal 0x040 4 = true := by decide
  simp [serve, hp, hlegal, Reg.addr]

/-- A served command word that decodes runs its command (R80). -/
theorem stepWith_of_serve_command {P : NumCfg} {s t : State} {w : Word} {i : Instr}
    (hs : serve P s = .command w t) (hd : decode w = .ok i) : stepWith P s = execWith P i t := by
  simp [stepWith, hs, outcomeOf, hd]

/-- Settles O1: the port serves the write as a command (`serve_write_cmd`), which `stepWith` runs; `step` and `exec` are
the instances at `specNum`. -/
theorem stepRunsTheDecodedCommand : Obligations.StepRunsTheDecodedCommand := by
  refine ⟨fun s w rest i hp hd => ?_, step_eq_stepWith, exec_eq_execWith⟩
  have hrun (P : NumCfg) : stepWith P s = execWith P i { s with pending := rest, port := .written } :=
    stepWith_of_serve_command (serve_write_cmd P hp) hd
  exact ⟨by rw [step_eq_stepWith, exec_eq_execWith, hrun], hrun⟩

/-! ### The frame of a failing command -/

/-- A command that ends with an error code took the error on the state before it (R12, R261): a success leaves code 0. -/
theorem eq_takeError_of_err_ne_zero {P : NumCfg} {i : Instr} {s t : State} (h : execWith P i s = .next t)
    (herr : t.io.status.err ≠ 0) : ∃ e, t = s.takeError (encode i) e := by
  obtain ⟨d, -, rfl⟩ | ⟨e, -, rfl⟩ := execWith_cases h
  · exact absurd rfl herr
  · exact ⟨e, rfl⟩

/-- Settles O9, by `eq_takeError_of_err_ne_zero`: the error completion writes these fields and no other. -/
theorem failingCommandChangesOnlyTheCompletion : Obligations.FailingCommandChangesOnlyTheCompletion := by
  refine ⟨fun i s t h herr => ?_, fun P i s t h herr => ?_⟩
  · obtain ⟨e, rfl⟩ := eq_takeError_of_err_ne_zero (exec_eq_execWith i s ▸ h) herr
    rfl
  · obtain ⟨e, rfl⟩ := eq_takeError_of_err_ne_zero h herr
    rfl

end Sys2Proof.Machine
end

section
/-! PROOFS. Family 10_state.md: the address map and the port's step, in the terms of the registers and the buffers (R61 to
R65, R71, R74). -/

namespace Sys2Proof.Machine

open Sys2Proof.Config

/-! ### The address map -/

theorem mem_regAll (r : Reg) : r ∈ Reg.all := by
  cases r with
  | vadAna0 k | vadAna1 k | vadAna2 k => revert k; decide
  | vadNl b | vadInvNl b | vadNrgRatioSmthQ8 b | vadNoiseBias b | vadXnrgSubfr b | vadQualityQ15 b => revert b; decide
  | _ => decide

/-- No two registers share an address (R61). -/
theorem regAt_addr (r : Reg) : regAt r.addr = some r := by
  have hall : ∀ r ∈ Reg.all, regAt r.addr = some r := by decide
  exact hall r (mem_regAll r)

/-- The registers stand below the buffers (R61). -/
theorem regAt_eq_none {a : Nat} (h : 0x1000 ≤ a) : regAt a = none := by
  have hall : ∀ r ∈ Reg.all, r.addr < 0x1000 := by decide
  refine List.find?_eq_none.mpr fun r hr => ?_
  have := hall r hr
  simp only [decide_eq_true_eq]
  omega

theorem target_addr (r : Reg) : target r.addr = .reg r := by
  simp only [target, regAt_addr]

/-- The map above the registers, in addresses (R61). -/
theorem target_of_le {a : Nat} (h : 0x1000 ≤ a) : target a =
    if 0x1000 ≤ a ∧ a < 0x2000 then .bytes else if 0x2000 ≤ a ∧ a < 0x2F00 then .bytes
    else if 0x8000 ≤ a ∧ a < 0xDA00 then .sample else if 0x10000 ≤ a ∧ a < 0x15A00 then .retained else .reserved := by
  rw [target, regAt_eq_none h]
  rfl

theorem target_byteBuffer {a : Nat} (h : 0x1000 ≤ a ∧ a < 0x2F00) : target a = .bytes := by
  rw [target_of_le h.1]
  by_cases hpkt : a < 0x2000
  · rw [if_pos ⟨h.1, hpkt⟩]
  · rw [if_neg (by omega), if_pos (by omega)]

theorem target_smp {a : Nat} (h : 0x8000 ≤ a ∧ a < 0xDA00) : target a = .sample := by
  rw [target_of_le (by omega), if_neg (by omega), if_neg (by omega), if_pos h]

theorem target_fecbuf {a : Nat} (h : 0x10000 ≤ a ∧ a < 0x15A00) : target a = .retained := by
  rw [target_of_le (by omega), if_neg (by omega), if_neg (by omega), if_neg (by omega), if_pos h]

/-- The byte buffers are where `target` says so. -/
theorem of_target_bytes {a : Nat} (h : target a = .bytes) :
    (pktBase ≤ a ∧ a < pktBase + pktCap) ∨ (frmBase ≤ a ∧ a < frmBase + frmSlots * frmSlotBytes) := by
  unfold target at h
  split at h
  · cases h
  · split_ifs at h with hpkt hfrm
    · exact .inl hpkt
    · exact .inr hfrm

theorem of_target_sample {a : Nat} (h : target a = .sample) : smpBase ≤ a ∧ a < smpBase + 4 * smpCap := by
  unfold target at h
  split at h
  · cases h
  · split_ifs at h with _ _ hsmp
    exact hsmp

/-! ### Reads and writes through the map -/

theorem hostRead_addr (s : State) (r : Reg) : hostRead s r.addr = Reg.read s r := by
  simp only [hostRead, target_addr]

theorem hostWrite_addr (s : State) (r : Reg) (w : Word) : hostWrite s r.addr w = Reg.write s w r := by
  simp only [hostWrite, target_addr]

/-- What a write does: one register, four bytes of `PKT` or `FRM`, one sample of `SMP`, or nothing (R62 to R65, R71). -/
theorem hostWrite_cases (s : State) (a : Nat) (w : Word) :
    (∃ r, hostWrite s a w = Reg.write s w r) ∨
    (target a = .bytes ∧ hostWrite s a w = { s with mem := Memory.storeBytes s.mem a (wordBytes w) }) ∨
    (target a = .sample ∧ hostWrite s a w = { s with mem := Memory.storeSamples s.mem a [w.extractLsb' 0 24] }) ∨
    hostWrite s a w = s := by
  unfold hostWrite
  cases h : target a with
  | reg r => exact .inl ⟨r, rfl⟩
  | bytes => exact .inr (.inl ⟨rfl, rfl⟩)
  | sample => exact .inr (.inr (.inl ⟨rfl, rfl⟩))
  | retained | reserved => exact .inr (.inr (.inr rfl))

/-! ### One step -/

theorem accessLegal_iff (addr size : Nat) : accessLegal addr size = true ↔ size = 4 ∧ addr % 4 = 0 ∧ addr < 0x20000 := by
  rw [accessLegal, Bool.and_eq_true, Bool.and_eq_true, beq_iff_eq, beq_iff_eq, decide_eq_true_eq, addrSpace_eq, and_assoc]

/-- What a step can do (R16): one case for each way the port serves the next access. -/
inductive StepEffect (s : State) : State → Prop where
  | idle (hp : s.pending = []) : StepEffect s s
  | hardwareReset {rest : List HostAccess} (hp : s.pending = .hardwareReset :: rest) :
      StepEffect s (State.hardwareReset specNum { s with pending := rest })
  | read {addr : Nat} {rest : List HostAccess} (hp : s.pending = .read addr 4 :: rest) :
      StepEffect s { s with pending := rest, port := .data (hostRead s addr) }
  | write {addr : Nat} {w : Word} {rest : List HostAccess} (hp : s.pending = .write addr 4 w :: rest)
      (hcmd : addr ≠ 0x040) (halign : addr % 4 = 0) :
      StepEffect s (hostWrite { s with pending := rest, port := .written } addr w)
  | command {w : Word} {rest : List HostAccess} {i : Instr} {t : State} (hp : s.pending = .write 0x040 4 w :: rest)
      (hd : decode w = .ok i) (hx : exec i { s with pending := rest, port := .written } = .next t) : StepEffect s t
  | illegal {w : Word} {rest : List HostAccess} (hp : s.pending = .write 0x040 4 w :: rest) :
      StepEffect s (illegalCommand { s with pending := rest, port := .written } w)

theorem stepEffect_of_step {s t : State} (h : step s = .next t) : StepEffect s t := by
  rw [step, serve] at h
  match hp : s.pending with
  | [] =>
    rw [hp] at h
    cases h
    exact .idle hp
  | .hardwareReset :: rest =>
    rw [hp] at h
    cases h
    exact .hardwareReset hp
  | .read addr size :: rest =>
    simp only [hp] at h
    split at h
    · next hl =>
      obtain ⟨rfl, -, -⟩ := (accessLegal_iff addr size).mp hl
      cases h
      exact .read hp
    · cases h
  | .write addr size w :: rest =>
    simp only [hp] at h
    split at h
    · next hl =>
      obtain ⟨rfl, halign, -⟩ := (accessLegal_iff addr size).mp hl
      split at h
      · next hcmd =>
        subst hcmd
        simp only [outcomeOf] at h
        cases hd : decode w with
        | ok i => exact .command hp hd (by rw [hd] at h; exact h)
        | error e =>
          rw [hd] at h
          cases h
          exact .illegal hp
      · next hcmd =>
        cases h
        exact .write hp hcmd halign
    · cases h

/-! ### A decoded command is its word -/

/-- A word is its three fields, put together again (R80). -/
theorem append_commandFields (w : Word) :
    (commandFields w).zero ++ (commandFields w).flg ++ (commandFields w).opc = w := by
  refine BitVec.eq_of_getLsbD_eq fun k hk => ?_
  simp only [commandFields, BitVec.getLsbD_append, BitVec.getLsbD_extractLsb']
  split
  · next h8 => simp [h8]
  · next h8 =>
    split
    · next h16 => simp [h16, show 8 + (k - 8) = k by omega]
    · next h16 => simp [show k - 8 - 8 < 16 by omega, show 16 + (k - 8 - 8) = k by omega]

theorem opc_flg_of_opcodeCommand {opc : BitVec 8} {i : Instr} (h : opcodeCommand opc = some i) :
    i.opc = opc ∧ i.flg = 0 := by
  unfold opcodeCommand at h
  split at h <;> cases h <;> next hopc => exact ⟨BitVec.eq_of_toNat_eq hopc.symm, rfl⟩

theorem fields_of_decodeFields {c : CommandWord} {i : Instr} (h : decodeFields c = .ok i) :
    c.zero = 0 ∧ i.flg = c.flg ∧ i.opc = c.opc := by
  unfold decodeFields at h
  split_ifs at h with hzero hopc hflg hflg hflg
  · cases h
    exact ⟨not_not.mp hzero, hflg.symm, hopc.symm⟩
  · cases h
    exact ⟨not_not.mp hzero, hflg.symm, hopc.symm⟩
  · split at h
    · cases h
    · next i' hi =>
      cases h
      obtain ⟨hiopc, hiflg⟩ := opc_flg_of_opcodeCommand hi
      exact ⟨not_not.mp hzero, hiflg.trans hflg.symm, hiopc⟩
  · split at h <;> cases h

/-- The word in `CMD` after a command is the written word (log entry 8). -/
theorem encode_of_decode {w : Word} {i : Instr} (h : decode w = .ok i) : encode i = w := by
  obtain ⟨hzero, hflg, hopc⟩ := fields_of_decodeFields h
  rw [encode, hflg, hopc, ← hzero]
  exact append_commandFields w

end Sys2Proof.Machine
end

section
/-! PROOFS. The length of every packet the framing commands write (R197 to R200, R216): exactly the length they check
against `OUT_CAP`. -/

namespace Sys2Proof.Machine

open Sys2Proof.Config

/-! ### Length fields -/

theorem length_encLen (l : Nat) : (encLen l).length = encLenSize l := by
  unfold encLen encLenSize
  split <;> rfl

theorem length_flatMap_encLen (lens : List Nat) : (lens.flatMap encLen).length = (lens.map encLenSize).sum := by
  rw [List.length_flatMap, List.map_congr_left fun l _ => length_encLen l]

/-- A length that is read was stored in as many bytes as `encLen` takes for it (R89, R90). -/
theorem eq_encLenSize_of_decLen {bs : List Byte} {l u : Nat} (h : decLen bs = some (l, u)) : u = encLenSize l := by
  unfold decLen at h
  unfold encLenSize
  split at h
  · cases h
  · split_ifs at h with h251
    · cases h
      rw [if_pos h251]
    · split at h
      · cases h
      · cases h
        rw [if_neg (by omega)]

theorem eq_sum_of_readLens {k : Nat} {bs : List Byte} {lens : List Nat} {used : Nat}
    (h : readLens k bs = some (lens, used)) : used = (lens.map encLenSize).sum := by
  induction k generalizing bs lens used with
  | zero =>
    cases h
    rfl
  | succ k ih =>
    rw [readLens] at h
    split at h
    · cases h
    · next l u hl =>
      split at h
      · cases h
      · next lens' used' hrest =>
        cases h
        rw [eq_encLenSize_of_decLen hl, ih hrest, List.map_cons, List.sum_cons]

/-! ### The re-framed size -/

theorem baseSize_le (lens : List Nat) : baseSize lens ≤ 2 + lens.sum + (lens.dropLast.map encLenSize).sum := by
  unfold baseSize
  split <;> omega

/-- Frames of one length need no length fields (R198). -/
theorem baseSize_replicate (m l : Nat) : baseSize (List.replicate m l) = 2 + m * l := by
  have hneeds : needsLens (List.replicate m l) = false := by
    rw [needsLens, List.any_eq_false]
    intro x hx
    obtain ⟨hm, rfl⟩ := List.mem_replicate.mp hx
    cases m with
    | zero => exact absurd rfl hm
    | succ m => simp [List.replicate_succ]
  simp [baseSize, hneeds]

/-- What parsing a packet of `n` bytes says about sizes: re-framing without padding takes at most one byte more (R198),
and the frames lie inside the packet (R197). -/
structure Parsed.Fits (r : Parsed) (n : Nat) : Prop where
  base : baseSize r.lens ≤ n + 1
  frames : r.first + r.lens.sum ≤ n

theorem fits_code0 {toc : Byte} {n : Nat} (hn : 0 < n) : (Parsed.mk toc [n - 1] 1).Fits n where
  base := by
    have := baseSize_le [n - 1]
    simp only [List.sum_singleton, List.dropLast_singleton, List.map_nil, List.sum_nil] at this
    simp only
    omega
  frames := by
    simp only [List.sum_singleton]
    omega

theorem fits_of_parseCode1 {toc : Byte} {n : Nat} {r : Parsed} (hn : 0 < n) (h : parseCode1 toc n = some r) :
    r.Fits n := by
  unfold parseCode1 at h
  split_ifs at h
  cases h
  have hbase := baseSize_replicate 2 ((n - 1) / 2)
  simp only [List.replicate] at hbase
  refine ⟨?_, ?_⟩
  · simp only [hbase]
    omega
  · simp only [List.sum_cons, List.sum_nil]
    omega

theorem fits_of_parseCode2 {toc : Byte} {p : List Byte} {r : Parsed} (h : parseCode2 toc p = some r) :
    r.Fits p.length := by
  unfold parseCode2 at h
  split at h
  · cases h
  · next l0 u hl =>
    split_ifs at h with hlong
    cases h
    have hu := eq_encLenSize_of_decLen hl
    have hbase := baseSize_le [l0, p.length - 1 - u - l0]
    simp only [List.sum_cons, List.sum_nil, List.dropLast_cons_cons, List.dropLast_singleton, List.map_cons,
      List.map_nil] at hbase
    refine ⟨?_, ?_⟩
    · simp only
      omega
    · simp only [List.sum_cons, List.sum_nil]
      omega

theorem fits_of_parseCode3Frames {toc : Byte} {p : List Byte} {v : Bool} {m i stop : Nat} {r : Parsed} (hi : 2 ≤ i)
    (hstop : stop ≤ p.length) (h : parseCode3Frames toc p v m i stop = some r) : r.Fits p.length := by
  unfold parseCode3Frames at h
  split_ifs at h with horder hv hmod
  · split at h
    · cases h
    · next lens used hl =>
      split_ifs at h with hroom
      cases h
      have hused := eq_sum_of_readLens hl
      have hbase := baseSize_le (lens ++ [stop - (i + used) - lens.sum])
      rw [List.dropLast_concat, ← hused, List.sum_append, List.sum_singleton] at hbase
      refine ⟨?_, ?_⟩
      · simp only
        omega
      · simp only [List.sum_append, List.sum_singleton]
        omega
  · cases h
    have hle : m * ((stop - i) / m) ≤ stop - i := Nat.mul_div_le _ _
    refine ⟨?_, ?_⟩
    · simp only [baseSize_replicate]
      omega
    · simp only [List.sum_replicate, smul_eq_mul]
      omega

theorem fits_of_parseCode3 {toc : Byte} {p : List Byte} {r : Parsed} (h : parseCode3 toc p = some r) :
    r.Fits p.length := by
  unfold parseCode3 at h
  split at h
  · simp only at h
    split_ifs at h with hm hpad
    · split at h
      · cases h
      · next padLen u hu =>
        split_ifs at h with hroom
        exact fits_of_parseCode3Frames (by omega) (by omega) h
    · exact fits_of_parseCode3Frames (le_refl 2) (le_refl _) h
  · cases h

theorem eq_of_checked {r r' : Parsed} (h : r.checked = some r') : r = r' := by
  unfold Parsed.checked at h
  split_ifs at h
  exact Option.some.inj h

theorem fits_of_parsePacket {p : List Byte} {r : Parsed} (h : parsePacket p = some r) : r.Fits p.length := by
  have hbind {o : Option Parsed} (ho : o.bind Parsed.checked = some r) : o = some r := by
    obtain ⟨r', rfl, hr⟩ := Option.bind_eq_some_iff.mp ho
    rw [eq_of_checked hr]
  unfold parsePacket at h
  split at h
  · cases h
  · next toc rest =>
    split at h
    · exact eq_of_checked h ▸ fits_code0 (by simp)
    · exact fits_of_parseCode1 (by simp) (hbind h)
    · exact fits_of_parseCode2 (hbind h)
    · exact fits_of_parseCode3 (hbind h)

theorem length_flatten_framesAt {p : List Byte} {off : Nat} {lens : List Nat} (h : off + lens.sum ≤ p.length) :
    (framesAt p off lens).flatten.length = lens.sum := by
  induction lens generalizing off with
  | nil => rfl
  | cons l lens ih =>
    rw [List.sum_cons] at h
    rw [framesAt, List.flatten_cons, List.length_append, ih (by omega), List.length_take, List.length_drop, List.sum_cons]
    omega

theorem length_lenFields (lens : List Nat) :
    (lenFields lens).length = if needsLens lens then (lens.dropLast.map encLenSize).sum else 0 := by
  unfold lenFields
  split
  · exact length_flatMap_encLen _
  · rfl

/-- The padding-length field and the padding data together are the overhead (R92, R93). -/
theorem length_padField_add_padData (extra : Nat) : (padField extra).length + (padData extra).length = extra := by
  unfold padField padData padEscapes
  split_ifs with h
  · simp [h]
  · simp only [List.length_append, List.length_replicate, List.length_singleton]
    omega

/-- Re-framing to `t` bytes gives `t` bytes (R200). -/
theorem length_reframe {p : List Byte} {r : Parsed} {t : Nat} (h : parsePacket p = some r) (ht : p.length < t) :
    (reframe r p t).length = t := by
  obtain ⟨hbase, hframes⟩ := fits_of_parsePacket h
  have hflat := length_flatten_framesAt hframes
  have hpad := length_padField_add_padData (t - baseSize r.lens)
  have hfields := length_lenFields r.lens
  have hsize : baseSize r.lens = 2 + r.lens.sum + (lenFields r.lens).length := by rw [hfields, baseSize]
  simp only [reframe, Parsed.frames, List.length_cons, List.length_append]
  omega

/-! ### A built packet -/

theorem length_builtPacket (base : Byte) (units : List (List Byte)) :
    (builtPacket base units).length = buildSize (units.map List.length) := by
  unfold builtPacket buildSize
  split
  · simp [buildSingle, Nat.add_comm]
  · next hne =>
    have hlen : (units.map List.length).length ≠ 1 := by
      rw [List.length_map]
      intro h1
      obtain ⟨u, rfl⟩ := List.length_eq_one_iff.mp h1
      exact hne u rfl
    rw [if_neg hlen]
    simp only [buildMulti, List.length_cons, List.length_append, length_flatMap_encLen, List.length_flatten,
      List.map_dropLast]
    omega

theorem map_length_unitPayloads (s : State) (j : Nat) (lens : List Nat) :
    (unitPayloads s j lens).map List.length = lens := by
  induction lens generalizing j with
  | nil => rfl
  | cons l lens ih => rw [unitPayloads, List.map_cons, length_frmBytes, ih]

end Sys2Proof.Machine
end

section
/-! PROOFS. What the body of each command leaves when it succeeds, said once for all commands. -/

namespace Sys2Proof.Machine

open Sys2Proof.Config

/-- The commands that write a packet (R192, R196, R216, R217). -/
def packetCommands : List Instr := [.brcConform, .pktPad, .pktBuild, .pktCn]

/-- What a successful command can do to the state before its completion: nothing; a record of its own; a retained frame; a
packet of a length within `OUT_CAP`. The bounds are those the command has checked. -/
inductive CommandEffect (P : NumCfg) (s : State) : Instr → State → Prop where
  | keeps (i : Instr) : CommandEffect P s i s
  | reset : CommandEffect P s .reset { s with dtx := resetDtx, fec := resetFec }
  | vadInit : CommandEffect P s .vadInit { s with vad := vadInit P }
  | vadEval {fs n : Nat} (hn : n ≤ P.vadMaxLen) :
      CommandEffect P s .vadEval { s with vad := vadFrame P s.vad fs (s.smpValues n) }
  | dtxDecide {fs n : Nat} (hn : n ≤ P.vadMaxLen) :
      CommandEffect P s .dtxDecide (decideFrame P s fs (s.smpValues n)).state
  | fecRecord {wasActive : Bool} (hpos : 0 < s.io.arg0.toNat) (hcap : s.io.arg0.toNat ≤ smpCap) :
      CommandEffect P s (.fecRecord wasActive) (recordFrame s s.io.arg0 wasActive)
  | packet {i : Instr} {q : List Byte} {len : Nat} (hi : i ∈ packetCommands) (hlen : q.length = len)
      (hcap : len ≤ s.col.outCap.toNat) : CommandEffect P s i (s.storePacket q len)

/-! ### Peeling a body that succeeds -/

theorem bind_eq_ok {α β : Type} {x : Except CmdError α} {k : α → Except CmdError β} {b : β} (h : (x >>= k) = .ok b) :
    ∃ a, x = .ok a ∧ k a = .ok b := by
  cases x with
  | ok a => exact ⟨a, rfl, h⟩
  | error e => cases h

theorem raiseIf_bind_eq_ok {α : Type} {c : Prop} [Decidable c] {e : CmdError} {k : Unit → Except CmdError α} {a : α}
    (h : (raiseIf c e >>= k) = .ok a) : ¬c ∧ k () = .ok a := by
  rw [raiseIf_bind] at h
  split at h
  · cases h
  · next hc => exact ⟨hc, h⟩

section Bodies
variable {P : NumCfg} {s : State} {d : Done}

theorem vadEval_effect (h : vadEval P s = .ok d) : CommandEffect P s .vadEval d.state := by
  simp only [vadEval] at h
  split at h
  · cases h
    exact .keeps _
  · obtain ⟨-, h⟩ := raiseIf_bind_eq_ok h
    obtain ⟨hlen, h⟩ := raiseIf_bind_eq_ok h
    split at h <;> cases h
    · exact .keeps _
    · exact .vadEval (by omega)

theorem dtxDecide_effect (h : dtxDecide P s = .ok d) : CommandEffect P s .dtxDecide d.state := by
  obtain ⟨-, h⟩ := raiseIf_bind_eq_ok h
  obtain ⟨hlen, h⟩ := raiseIf_bind_eq_ok h
  obtain ⟨-, h⟩ := raiseIf_bind_eq_ok h
  cases h
  exact .dtxDecide (by omega)

theorem fecRecord_effect {wasActive : Bool} (h : fecRecord wasActive s = .ok d) :
    CommandEffect P s (.fecRecord wasActive) d.state := by
  obtain ⟨hlen, h⟩ := raiseIf_bind_eq_ok h
  obtain ⟨-, h⟩ := raiseIf_bind_eq_ok h
  cases h
  exact .fecRecord (by omega) (by omega)

theorem brcConform_effect (h : brcConform s = .ok d) : CommandEffect P s .brcConform d.state := by
  obtain ⟨-, h⟩ := raiseIf_bind_eq_ok h
  obtain ⟨-, h⟩ := raiseIf_bind_eq_ok h
  obtain ⟨-, h⟩ := raiseIf_bind_eq_ok h
  obtain ⟨-, h⟩ := raiseIf_bind_eq_ok h
  obtain ⟨hroom, h⟩ := raiseIf_bind_eq_ok h
  split at h
  · next hpad =>
    split at h
    · split at h <;> cases h
      exact .keeps _
    · next r hr =>
      cases h
      exact .packet (by decide) (length_reframe hr (by rwa [length_pktBytes])) (by omega)
  · cases h
    exact .keeps _

theorem pktPad_effect (h : pktPad s = .ok d) : CommandEffect P s .pktPad d.state := by
  obtain ⟨-, h⟩ := raiseIf_bind_eq_ok h
  obtain ⟨-, h⟩ := raiseIf_bind_eq_ok h
  split at h
  · cases h
    exact .keeps _
  · next hlong =>
    obtain ⟨hroom, h⟩ := raiseIf_bind_eq_ok h
    split at h
    · cases h
      exact .keeps _
    · next r hr =>
      cases h
      exact .packet (by decide) (length_reframe hr (by rw [length_pktBytes]; omega)) (by omega)

theorem pktCheck_state (h : pktCheck s = .ok d) : d.state = s := by
  obtain ⟨bw, -, h⟩ := bind_eq_ok h
  obtain ⟨coder, -, h⟩ := bind_eq_ok h
  obtain ⟨-, h⟩ := raiseIf_bind_eq_ok h
  obtain ⟨-, h⟩ := raiseIf_bind_eq_ok h
  obtain ⟨-, h⟩ := raiseIf_bind_eq_ok h
  cases h
  rfl

theorem pktToc_state (h : pktToc s = .ok d) : d.state = s := by
  obtain ⟨coder, -, h⟩ := bind_eq_ok h
  obtain ⟨bw, -, h⟩ := bind_eq_ok h
  obtain ⟨-, h⟩ := raiseIf_bind_eq_ok h
  obtain ⟨-, h⟩ := raiseIf_bind_eq_ok h
  cases h
  rfl

theorem pktBuild_effect (h : pktBuild s = .ok d) : CommandEffect P s .pktBuild d.state := by
  obtain ⟨-, h⟩ := raiseIf_bind_eq_ok h
  obtain ⟨-, h⟩ := raiseIf_bind_eq_ok h
  obtain ⟨-, h⟩ := raiseIf_bind_eq_ok h
  obtain ⟨-, -, h⟩ := bind_eq_ok h
  obtain ⟨hroom, h⟩ := raiseIf_bind_eq_ok h
  cases h
  exact .packet (by decide) (by rw [length_builtPacket, map_length_unitPayloads]) (by omega)

theorem pktCn_effect (h : pktCn s = .ok d) : CommandEffect P s .pktCn d.state := by
  obtain ⟨-, h⟩ := raiseIf_bind_eq_ok h
  obtain ⟨hroom, h⟩ := raiseIf_bind_eq_ok h
  cases h
  exact .packet (by decide) rfl (by omega)

end Bodies

theorem commandEffect_of_body {P : NumCfg} {i : Instr} {s : State} {d : Done} (h : commandBody P i s = .ok d) :
    CommandEffect P s i d.state := by
  cases i with
  | nop | fecQuery | fecRate | brcTarget =>
    cases h
    exact .keeps _
  | reset =>
    cases h
    exact .reset
  | vadInit =>
    cases h
    exact .vadInit
  | vadEval => exact vadEval_effect h
  | dtxDecide => exact dtxDecide_effect h
  | fecRecord wasActive => exact fecRecord_effect h
  | brcConform => exact brcConform_effect h
  | pktPad => exact pktPad_effect h
  | pktCheck => exact pktCheck_state h ▸ .keeps _
  | pktToc => exact pktToc_state h ▸ .keeps _
  | pktBuild => exact pktBuild_effect h
  | pktCn => exact pktCn_effect h

/-- What a command can do: an effect of its body with the success completion, or an error taken on the state before it. -/
theorem exec_effect {i : Instr} {s t : State} (h : exec i s = .next t) :
    (∃ u r0 r1, CommandEffect specNum s i u ∧ t = u.complete (encode i) r0 r1) ∨
    (∃ e, t = s.takeError (encode i) e) := by
  obtain ⟨d, hd, rfl⟩ | ⟨e, -, rfl⟩ := exec_cases h
  · exact .inl ⟨d.state, d.res0, d.res1, commandEffect_of_body hd, rfl⟩
  · exact .inr ⟨e, rfl⟩

/-! ### Fields that a command keeps -/

/-- `FEC.RECORD` writes the FEC record, one bit of the DTX record and, with FEC enabled, `FECBUF` (R182). -/
theorem recordFrame_eq (s : State) (len : Word) (wasActive : Bool) :
    recordFrame s len wasActive = { s with
      fec := recordedFec s len wasActive
      dtx := { s.dtx with stat := { s.dtx.stat with decisionValid := false } }
      mem := (recordFrame s len wasActive).mem } := by
  unfold recordFrame
  split <;> rfl

/-- Every effect is on the packet length, the records and the memory alone. -/
theorem CommandEffect.frame {P : NumCfg} {i : Instr} {s u : State} (h : CommandEffect P s i u) :
    u = { s with
      col := { s.col with pktLen := u.col.pktLen }, vad := u.vad, dtx := u.dtx, fec := u.fec, mem := u.mem } := by
  cases h with
  | fecRecord =>
    rw [recordFrame_eq]
  | _ => rfl

/-- Settles O10: the completion writes none of these fields (R256), and by `CommandEffect.frame` no body does. -/
theorem commandsKeepTheHostsRegisters : Obligations.CommandsKeepTheHostsRegisters := by
  intro i s t h
  obtain ⟨u, r0, r1, hu, rfl⟩ | ⟨e, rfl⟩ := exec_effect h
  · rw [hu.frame]
    exact ⟨rfl, rfl, rfl, rfl, rfl, rfl, rfl, rfl, rfl⟩
  · exact ⟨rfl, rfl, rfl, rfl, rfl, rfl, rfl, rfl, rfl⟩

theorem CommandEffect.records {P : NumCfg} {i : Instr} {s u : State} (h : CommandEffect P s i u) :
    (i ≠ .vadInit → i ≠ .vadEval → i ≠ .dtxDecide → u.vad = s.vad) ∧
    (i ≠ .reset → i ≠ .dtxDecide →
      u.dtx = { s.dtx with stat := { s.dtx.stat with decisionValid := u.dtx.stat.decisionValid } }) ∧
    (i ≠ .reset → i ≠ .dtxDecide → (∀ b, i ≠ .fecRecord b) → u.dtx = s.dtx) ∧
    (i ≠ .reset → (∀ b, i ≠ .fecRecord b) → u.fec = s.fec) := by
  cases h with
  | keeps | packet => exact ⟨fun _ _ _ => rfl, fun _ _ => rfl, fun _ _ _ => rfl, fun _ _ => rfl⟩
  | reset => exact ⟨fun _ _ _ => rfl, fun h => absurd rfl h, fun h => absurd rfl h, fun h => absurd rfl h⟩
  | vadInit => exact ⟨fun h => absurd rfl h, fun _ _ => rfl, fun _ _ _ => rfl, fun _ _ => rfl⟩
  | vadEval => exact ⟨fun _ h => absurd rfl h, fun _ _ => rfl, fun _ _ _ => rfl, fun _ _ => rfl⟩
  | dtxDecide => exact ⟨fun _ _ h => absurd rfl h, fun _ h => absurd rfl h, fun _ h => absurd rfl h, fun _ _ => rfl⟩
  | fecRecord =>
    rw [recordFrame_eq]
    exact ⟨fun _ _ _ => rfl, fun _ _ => rfl, fun _ _ h => absurd rfl (h _), fun _ h => absurd rfl (h _)⟩

/-- Settles O11, by `CommandEffect.records`: the completions write none of the three records. -/
theorem recordsAreWrittenByTheirCommands : Obligations.RecordsAreWrittenByTheirCommands := by
  intro i s t h
  obtain ⟨u, r0, r1, hu, rfl⟩ | ⟨e, rfl⟩ := exec_effect h
  · exact hu.records
  · exact ⟨fun _ _ _ => rfl, fun _ _ => rfl, fun _ _ _ => rfl, fun _ _ => rfl⟩

end Sys2Proof.Machine
end

section
/-! PROOFS. The ranges of the VAD record (R44, R137, R147): a frame of at most 960 samples keeps them, under the rounding
and under the truncating multiply. -/

namespace Sys2Proof.Machine

open Sys2Proof.Config

/-! ### Arithmetic without overflow -/

theorem wrap32_of_range {v : Int} (hlo : -2 ^ 31 ≤ v) (hhi : v < 2 ^ 31) : wrap32 v = v :=
  Int.bmod_eq_of_le (by omega) (by omega)

theorem toInt_toWord {v : Int} (hlo : -2 ^ 31 ≤ v) (hhi : v < 2 ^ 31) : (toWord v).toInt = v :=
  BitVec.toInt_ofInt_eq_self (by omega) hlo hhi

/-- A register keeps the range of the number put into it. -/
theorem inRange_toWord {lo hi v : Int} (hv : lo ≤ v ∧ v ≤ hi) (hlo : -2 ^ 31 ≤ lo) (hhi : hi < 2 ^ 31) :
    inRange lo hi (toWord v) := by
  unfold inRange
  rw [toInt_toWord (by omega) (by omega)]
  exact hv

theorem addPosSat32_range {a b : Int} (ha : 0 ≤ a) (hb : 0 ≤ b) : 0 ≤ addPosSat32 a b ∧ addPosSat32 a b ≤ int32Max := by
  unfold addPosSat32 int32Max
  omega

theorem sat16_range (v : Int) : -32768 ≤ sat16 v ∧ sat16 v ≤ 32767 := by
  unfold sat16
  omega

section BothMultiplies
variable {P : NumCfg} (hP : P = specNum ∨ P = floorNum)
include hP

/-- Both multiplies are the product divided by 2^16, one after adding a half (R115). -/
theorem mulQ16_eq : ∃ half : Int, 0 ≤ half ∧ half ≤ 32768 ∧
    ∀ a b, P.mulQ16 a b = wrap32 ((a * b + half) / 65536) := by
  obtain rfl | rfl := hP
  · exact ⟨32768, by decide, by decide, fun _ _ => rfl⟩
  · exact ⟨0, by decide, by decide, fun a b => by rw [Int.add_zero]; rfl⟩

/-- Bounds on a product bound the multiply. -/
theorem mulQ16_range {a b lo hi : Int} (hlo : lo * 65536 ≤ a * b) (hhi : a * b + 32768 < (hi + 1) * 65536)
    (hlo32 : -2 ^ 31 ≤ lo) (hhi32 : hi < 2 ^ 31) : lo ≤ P.mulQ16 a b ∧ P.mulQ16 a b ≤ hi := by
  obtain ⟨half, hhalf, hhalf', hmul⟩ := mulQ16_eq hP
  rw [hmul, wrap32_of_range] <;> omega

/-- R117: the sigmoid is a number of 15 bits. -/
theorem sigmoid15_range (x : Int) : 0 ≤ sigmoid15 P x ∧ sigmoid15 P x ≤ 32767 := by
  have hspec : sigmoid15 P x = sigmoid15 specNum x := by obtain rfl | rfl := hP <;> rfl
  have hsegment (y : Int) (h0 : 0 ≤ y) (h192 : y < 192) :
      (asr y 5).toNat = 0 ∨ (asr y 5).toNat = 1 ∨ (asr y 5).toNat = 2 ∨ (asr y 5).toNat = 3 ∨ (asr y 5).toNat = 4 ∨
        (asr y 5).toNat = 5 := by
    unfold asr
    omega
  have hmod (y : Int) : 0 ≤ y % 32 ∧ y % 32 < 32 := ⟨Int.emod_nonneg _ (by decide), Int.emod_lt_of_pos _ (by decide)⟩
  rw [hspec, sigmoid15]
  split_ifs with hneg hclip hclip
  · decide
  · have hm := hmod (-x)
    obtain h | h | h | h | h | h := hsegment (-x) (by omega) (Int.not_le.mp hclip) <;>
      simp only [h, specNum, List.getD_cons_zero, List.getD_cons_succ] <;> omega
  · decide
  · have hm := hmod x
    obtain h | h | h | h | h | h := hsegment x (by omega) (Int.not_le.mp hclip) <;>
      simp only [h, specNum, List.getD_cons_zero, List.getD_cons_succ] <;> omega

omit hP in
theorem frac7_range (x : Int) : 0 ≤ frac7 x ∧ frac7 x < 128 :=
  ⟨Int.emod_nonneg _ (by decide), Int.emod_lt_of_pos _ (by decide)⟩

/-- R119: the square root approximation is below 2^16. -/
theorem isqrtApprox_range (x : Int) : 0 ≤ isqrtApprox P x ∧ isqrtApprox P x ≤ 65536 := by
  have hspec : isqrtApprox P x = isqrtApprox specNum x := by obtain rfl | rfl := hP <;> rfl
  rw [hspec, isqrtApprox]
  split
  · decide
  · have hbase : ∃ c : Int, 0 ≤ c ∧ c ≤ 46214 ∧ c = if clz32 x % 2 = 1 then specNum.sqrtOdd else specNum.sqrtEven := by
      split
      · exact ⟨32768, by decide, by decide, rfl⟩
      · exact ⟨46214, by decide, by decide, rfl⟩
    obtain ⟨c, hc0, hc, hceq⟩ := hbase
    rw [← hceq]
    have hy0 : 0 ≤ asr c (clz32 x / 2) := Int.ediv_nonneg hc0 (by positivity)
    have hy : asr c (clz32 x / 2) ≤ 46214 := (Int.ediv_le_self _ hc0).trans hc
    obtain ⟨hf0, hf⟩ := frac7_range x
    have hprod0 : 0 ≤ asr c (clz32 x / 2) * (specNum.sqrtFrac * frac7 x) :=
      mul_nonneg hy0 (mul_nonneg (by decide) hf0)
    have hprod : asr c (clz32 x / 2) * (specNum.sqrtFrac * frac7 x) ≤ 46214 * (213 * 127) :=
      mul_le_mul hy (mul_le_mul_of_nonneg_left (by omega) (by decide)) (mul_nonneg (by decide) hf0) (by decide)
    generalize asr c (clz32 x / 2) = y at *
    simp only [asr]
    omega

/-! ### The noise estimator -/

theorem nextCounter_range {c : Int} (hc : 15 ≤ c ∧ c ≤ 1000) : 15 ≤ nextCounter P c ∧ nextCounter P c ≤ 1000 := by
  have hlimit : P.counterLimit = 1000 := by obtain rfl | rfl := hP <;> rfl
  unfold nextCounter
  rw [hlimit]
  split <;> omega

omit hP in
theorem minCoef_range {c : Int} (hc : 15 ≤ c) : 0 ≤ minCoef P c ∧ minCoef P c ≤ 32767 := by
  unfold minCoef
  split
  · rw [div32, Int.tdiv_eq_ediv_of_nonneg (by decide)]
    have hden : 0 ≤ asr c 4 := Int.ediv_nonneg (by omega) (by decide)
    exact ⟨Int.ediv_nonneg (by decide) (by omega), Int.ediv_le_self _ (by decide)⟩
  · decide

omit hP in
/-- The inverse of a positive noise energy (R137). -/
theorem div32_int32Max_range {d : Int} (hd : 1 ≤ d) (hd' : d ≤ int32Max) :
    1 ≤ div32 int32Max d ∧ div32 int32Max d ≤ int32Max ∧ div32 int32Max d * d ≤ int32Max := by
  rw [div32, Int.tdiv_eq_ediv_of_nonneg (by decide)]
  exact ⟨(Int.le_ediv_iff_mul_le (by omega)).mpr (by omega), Int.ediv_le_self _ (by decide), Int.ediv_mul_le _ (by omega)⟩

/-- The coefficient is below one half, so that an update goes less than half way (R137). -/
theorem noiseCoef_range {mc nl nrg : Int} (hmc : 0 ≤ mc ∧ mc ≤ 32767) (hnl : 0 ≤ nl) (hnrg : 1 ≤ nrg)
    (hnrg' : nrg ≤ int32Max) : 0 ≤ noiseCoef P mc nl nrg ∧ noiseCoef P mc nl nrg ≤ 32767 := by
  have hcoef : P.noiseSmoothCoefQ16 = 1024 := by obtain rfl | rfl := hP <;> rfl
  unfold noiseCoef
  simp only [hcoef]
  split_ifs with hhigh hlow
  · simp only [asr]
    omega
  · omega
  · obtain ⟨hq1, -, hqn⟩ := div32_int32Max_range hnrg hnrg'
    have hprod0 : 0 ≤ div32 int32Max nrg * nl := mul_nonneg (by omega) hnl
    have hprod : div32 int32Max nrg * nl ≤ int32Max :=
      (mul_le_mul_of_nonneg_left (Int.not_lt.mp hlow) (by omega)).trans hqn
    have hmax : int32Max = 2147483647 := rfl
    have hm := mulQ16_range hP (a := div32 int32Max nrg) (b := nl) (lo := 0) (hi := 32768) (by omega) (by omega)
      (by decide) (by decide)
    have hc := mulQ16_range hP (a := P.mulQ16 (div32 int32Max nrg) nl) (b := 2 * 1024) (lo := 0) (hi := 32767) (by omega)
      (by omega) (by decide) (by decide)
    omega

/-- A step of at most the distance stays between the ends (R137). -/
theorem mulQ16_between {d c : Int} (hd : -2 ^ 31 < d) (hd' : d < 2 ^ 31) (hc : 0 ≤ c ∧ c ≤ 32767) :
    min d 0 ≤ P.mulQ16 d c ∧ P.mulQ16 d c ≤ max d 0 := by
  obtain hneg | hpos := lt_or_ge d 0
  · have h1 : d * 32767 ≤ d * c := mul_le_mul_of_nonpos_left hc.2 hneg.le
    have h2 : d * c ≤ 0 := mul_nonpos_of_nonpos_of_nonneg hneg.le hc.1
    rw [min_eq_left hneg.le, max_eq_right hneg.le]
    exact mulQ16_range hP (by omega) (by omega) (by omega) (by decide)
  · have h1 : d * c ≤ d * 32767 := mul_le_mul_of_nonneg_left hc.2 hpos
    have h2 : 0 ≤ d * c := mul_nonneg hpos hc.1
    rw [min_eq_right hpos, max_eq_left hpos]
    exact mulQ16_range hP (by omega) (by omega) (by decide) (by omega)

theorem nextInvNl_range {mc nl inv bias xnrg : Int} (hmc : 0 ≤ mc ∧ mc ≤ 32767) (hnl : 0 ≤ nl)
    (hinv : 1 ≤ inv ∧ inv ≤ int32Max) (hbias : 1 ≤ bias) (hx : 0 ≤ xnrg) :
    1 ≤ nextInvNl P mc nl inv bias xnrg ∧ nextInvNl P mc nl inv bias xnrg ≤ int32Max := by
  have hnrg : 1 ≤ noiseEnergy xnrg bias ∧ noiseEnergy xnrg bias ≤ int32Max := by
    unfold noiseEnergy addPosSat32 int32Max
    omega
  obtain ⟨hq1, hq, -⟩ := div32_int32Max_range hnrg.1 hnrg.2
  have hcoef := noiseCoef_range hP hmc hnl hnrg.1 hnrg.2
  have hdist := wrap32_of_range (v := div32 int32Max (noiseEnergy xnrg bias) - inv)
  have hstep := mulQ16_between hP (d := div32 int32Max (noiseEnergy xnrg bias) - inv)
    (c := noiseCoef P mc nl (noiseEnergy xnrg bias))
  simp only [nextInvNl]
  unfold int32Max at *
  rw [hdist (by omega) (by omega)]
  have hb := hstep (by omega) (by omega) hcoef
  rw [wrap32_of_range] <;> omega

theorem nlOfInv_range {inv : Int} (hinv : 1 ≤ inv ∧ inv ≤ int32Max) : 0 ≤ nlOfInv P inv ∧ nlOfInv P inv ≤ 0x00FFFFFF := by
  have hmax : P.nlMax = 0x00FFFFFF := by obtain rfl | rfl := hP <;> rfl
  obtain ⟨hq, -, -⟩ := div32_int32Max_range hinv.1 hinv.2
  unfold nlOfInv
  rw [hmax]
  omega

/-! ### The activity -/

theorem rawActivity_range (x nl : Quad Int) : 0 ≤ rawActivity P x nl ∧ rawActivity P x nl ≤ 32767 := sigmoid15_range hP _

theorem scaledActivity_nonneg {n fs : Nat} {e sa : Int} (hsa : 0 ≤ sa ∧ sa ≤ 32767) : 0 ≤ scaledActivity P n fs e sa := by
  unfold scaledActivity
  simp only
  generalize (if n = 20 * fs then asr e 1 else e) = power
  split_ifs
  · exact Int.ediv_nonneg hsa.1 (by decide)
  · obtain ⟨hr0, hr⟩ := isqrtApprox_range hP (shl power 16)
    have hprod0 : 0 ≤ (32768 + isqrtApprox P (shl power 16)) * sa := mul_nonneg (by omega) hsa.1
    have hprod : (32768 + isqrtApprox P (shl power 16)) * sa ≤ 98304 * 32767 :=
      mul_le_mul (by omega) hsa.2 hsa.1 (by decide)
    exact (mulQ16_range hP (lo := 0) (hi := 65536) (by omega) (by omega) (by decide) (by decide)).1
  · exact hsa.1

omit hP in
theorem activityQ8_range {sa : Int} (hsa : 0 ≤ sa) : 0 ≤ activityQ8 sa ∧ activityQ8 sa ≤ 255 := by
  unfold activityQ8 asr
  omega

/-! ### The bands and their energies -/

omit hP in
/-- The two outputs of a splitter are as long as half the input, of 16 bit samples (R134). -/
theorem split_range (xs : List Int) (s0 s1 : Int) :
    (split P xs s0 s1).lo.length = xs.length / 2 ∧ (split P xs s0 s1).hi.length = xs.length / 2 ∧
    (∀ v ∈ (split P xs s0 s1).lo, -32768 ≤ v ∧ v ≤ 32767) ∧ (∀ v ∈ (split P xs s0 s1).hi, -32768 ≤ v ∧ v ≤ 32767) := by
  fun_induction split P xs s0 s1 with
  | case1 even odd rest s0 s1 in0 y0 x0 o1 in1 y1 x1 o2 r ih =>
    obtain ⟨hlo, hhi, hvlo, hvhi⟩ := ih
    change r.lo.length = _ at hlo
    change r.hi.length = _ at hhi
    simp only [List.length_cons, List.forall_mem_cons]
    exact ⟨by omega, by omega, ⟨sat16_range _, hvlo⟩, ⟨sat16_range _, hvhi⟩⟩
  | case2 xs s0 s1 hshort =>
    have hlen : xs.length / 2 = 0 := by
      match xs, hshort with
      | [], _ => rfl
      | [_], _ => simp
      | _ :: _ :: _, hshort => exact (hshort _ _ _ rfl).elim
    simp [hlen]

omit hP in
theorem splitReg_range (xs : List Int) (a : AllPass) :
    (splitReg P xs a).lo.length = xs.length / 2 ∧ (splitReg P xs a).hi.length = xs.length / 2 ∧
    (∀ v ∈ (splitReg P xs a).lo, -32768 ≤ v ∧ v ≤ 32767) ∧ (∀ v ∈ (splitReg P xs a).hi, -32768 ≤ v ∧ v ≤ 32767) :=
  split_range xs a.s0.toInt a.s1.toInt

omit hP in
theorem diffs_range {before : Int} {hs : List Int} (hb : -32768 ≤ before ∧ before ≤ 32767)
    (hv : ∀ h ∈ hs, -16384 ≤ h ∧ h ≤ 16383) : ∀ y ∈ diffs before hs, -49152 ≤ y ∧ y ≤ 49152 := by
  induction hs generalizing before with
  | nil => simp [diffs]
  | cons h hs ih =>
    obtain ⟨hh, hrest⟩ := List.forall_mem_cons.mp hv
    rw [diffs, List.forall_mem_cons]
    exact ⟨by omega, ih (by omega) hrest⟩

omit hP in
theorem length_diffs (before : Int) (hs : List Int) : (diffs before hs).length = hs.length := by
  induction hs generalizing before with
  | nil => rfl
  | cons h hs ih => rw [diffs, List.length_cons, List.length_cons, ih]

omit hP in
theorem halved_range {l : List Int} (hv : ∀ v ∈ l, -32768 ≤ v ∧ v ≤ 32767) : ∀ h ∈ halved l, -16384 ≤ h ∧ h ≤ 16383 := by
  intro h hh
  obtain ⟨v, hmem, rfl⟩ := List.mem_map.mp hh
  have := hv v hmem
  simp only [asr]
  omega

omit hP in
theorem asr_mul_self_le {x k : Int} (hx : -(8 * k) ≤ x ∧ x ≤ 8 * k) : asr x 3 * asr x 3 ≤ k * k := by
  have hlo : -k ≤ asr x 3 := by
    unfold asr
    omega
  have hhi : asr x 3 ≤ k := by
    unfold asr
    omega
  exact mul_self_le_mul_self_of_le_of_neg_le hhi (by omega)

omit hP in
theorem subEnergy_nonneg (band : List Int) (k : Nat) : 0 ≤ subEnergy P band k := by
  refine List.sum_nonneg fun y hy => ?_
  obtain ⟨x, -, rfl⟩ := List.mem_map.mp hy
  exact mul_self_nonneg _

omit hP in
/-- The energy of a sub-frame, from a bound on the samples (R136). -/
theorem subEnergy_le {band : List Int} {k : Int} (hv : ∀ x ∈ band, -(8 * k) ≤ x ∧ x ≤ 8 * k) (j : Nat) :
    subEnergy P band j ≤ (band.length / P.vadSubframes : Nat) * (k * k) := by
  rw [subEnergy]
  generalize band.length / P.vadSubframes = sl
  have hsq : ∀ y ∈ ((band.drop (j * sl)).take sl).map (fun x => asr x 3 * asr x 3), y ≤ k * k := by
    intro y hy
    obtain ⟨x, hx, rfl⟩ := List.mem_map.mp hy
    exact asr_mul_self_le (hv x (List.mem_of_mem_drop (List.mem_of_mem_take hx)))
  have hlen : (((band.drop (j * sl)).take sl).map (fun x => asr x 3 * asr x 3)).length ≤ sl := by simp
  calc _ ≤ (((band.drop (j * sl)).take sl).map (fun x => asr x 3 * asr x 3)).length • (k * k) :=
        List.sum_le_card_nsmul _ _ hsq
    _ ≤ sl * (k * k) := by
        rw [nsmul_eq_mul]
        exact mul_le_mul_of_nonneg_right (by exact_mod_cast hlen) (mul_self_nonneg k)

/-- The look-ahead energy fits its register when a quarter of the band at the bound does (R136). -/
theorem lookAhead_range {band : List Int} {n : Nat} {k : Int} (hlen : band.length ≤ n)
    (hv : ∀ x ∈ band, -(8 * k) ≤ x ∧ x ≤ 8 * k) (hfit : (n / 4 : Nat) * (k * k) ≤ int32Max) :
    0 ≤ lookAhead P band ∧ lookAhead P band ≤ int32Max := by
  have hsub : P.vadSubframes = 4 := by obtain rfl | rfl := hP <;> rfl
  have hle := subEnergy_le (P := P) hv (P.vadSubframes - 1)
  have hquarter : ((band.length / P.vadSubframes : Nat) : Int) ≤ (n / 4 : Nat) := by
    rw [hsub]
    exact_mod_cast Nat.div_le_div_right hlen
  exact ⟨subEnergy_nonneg _ _, hle.trans ((mul_le_mul_of_nonneg_right hquarter (mul_self_nonneg k)).trans hfit)⟩

theorem bandEnergy_nonneg {carry : Int} {band : List Int} (hc : 0 ≤ carry) : 0 ≤ bandEnergy P carry band := by
  have hspec : bandEnergy P carry band = bandEnergy specNum carry band := by obtain rfl | rfl := hP <;> rfl
  have hsub := subEnergy_nonneg (P := specNum) band
  rw [hspec, bandEnergy_specNum]
  have h0 := addPosSat32_range hc (hsub 0)
  have h1 := addPosSat32_range h0.1 (hsub 1)
  have h2 := addPosSat32_range h1.1 (hsub 2)
  exact (addPosSat32_range h2.1 (Int.ediv_nonneg (hsub 3) (by decide))).1

/-- The look-ahead energies of the four bands of a frame fit their registers (R39, R136): the highest band is the longest,
480 samples of 16 bits; the lowest is 120 differences of 15 bit samples. -/
theorem splitBands_lookAhead_range (v : VadRegs) {xs : List Int} (hxs : xs.length ≤ 960) :
    (splitBands P v xs).band.All (fun band => 0 ≤ lookAhead P band ∧ lookAhead P band ≤ int32Max) := by
  obtain ⟨hlo4, hhi4, -, hv4⟩ := splitReg_range (P := P) xs v.ana0
  obtain ⟨hlo2, hhi2, -, hv2⟩ := splitReg_range (P := P) (splitReg P xs v.ana0).lo v.ana1
  obtain ⟨hlo1, hhi1, hw1, hv1⟩ := splitReg_range (P := P) (splitReg P (splitReg P xs v.ana0).lo v.ana1).lo v.ana2
  have hsmall {band : List Int} (hlen : band.length ≤ 480) (hv : ∀ x ∈ band, -32768 ≤ x ∧ x ≤ 32767) :=
    lookAhead_range hP hlen (k := 4096) (fun x hx => by have := hv x hx; omega) (by decide)
  have hcarry : -32768 ≤ v.hpState.toInt ∧ v.hpState.toInt ≤ 32767 := by
    have h1 := BitVec.le_toInt v.hpState
    have h2 := BitVec.toInt_lt (x := v.hpState)
    omega
  have hlowest := lookAhead_range hP (n := 120) (k := 6144) (by rw [length_diffs, halved, List.length_map]; omega)
    (diffs_range hcarry (halved_range hw1)) (by decide)
  have h1 := hsmall (by omega) hv1
  have h2 := hsmall (by omega) hv2
  have h3 := hsmall (by omega) hv4
  exact ⟨hlowest, h1, h2, h3⟩

/-! ### The record after a frame -/

/-- R137 for one band of a frame: the new inverse noise level. -/
theorem nextInvNl_range_of_regs {counter nl inv bias carry : Word} (band : List Int) (hc : inRange 15 1000 counter)
    (hnl : inRange 0 0x00FFFFFF nl) (hinv : inRange 1 0x7FFFFFFF inv) (hbias : inRange 1 0x7FFFFFFF bias)
    (hx : inRange 0 0x7FFFFFFF carry) :
    1 ≤ nextInvNl P (minCoef P counter.toInt) nl.toInt inv.toInt bias.toInt (bandEnergy P carry.toInt band) ∧
    nextInvNl P (minCoef P counter.toInt) nl.toInt inv.toInt bias.toInt (bandEnergy P carry.toInt band) ≤ int32Max :=
  nextInvNl_range hP (minCoef_range hc.1) hnl.1 hinv hbias.1 (bandEnergy_nonneg hP hx.1)

/-- R44, R147: a frame of at most 960 samples keeps the ranges of the VAD record, under both multiplies. -/
theorem vadFrame_keeps_vadOk {v : VadRegs} {fs : Nat} {xs : List Int} (hxs : xs.length ≤ 960) (hv : VadOk v) :
    VadOk (vadFrame P v fs xs) := by
  obtain ⟨hcounter, ⟨hnl0, hnl1, hnl2, hnl3⟩, ⟨hinv0, hinv1, hinv2, hinv3⟩, hbias, ⟨hx0, hx1, hx2, hx3⟩, -, -⟩ := hv
  obtain ⟨hbias0, hbias1, hbias2, hbias3⟩ := hbias
  obtain ⟨he0, he1, he2, he3⟩ := splitBands_lookAhead_range hP v (xs := xs.map toQ15) (by rwa [List.length_map])
  have hi0 := nextInvNl_range_of_regs hP (splitBands P v (xs.map toQ15)).band.b0 hcounter hnl0 hinv0 hbias0 hx0
  have hi1 := nextInvNl_range_of_regs hP (splitBands P v (xs.map toQ15)).band.b1 hcounter hnl1 hinv1 hbias1 hx1
  have hi2 := nextInvNl_range_of_regs hP (splitBands P v (xs.map toQ15)).band.b2 hcounter hnl2 hinv2 hbias2 hx2
  have hi3 := nextInvNl_range_of_regs hP (splitBands P v (xs.map toQ15)).band.b3 hcounter hnl3 hinv3 hbias3 hx3
  have hreg {i : Int} (hi : 1 ≤ i ∧ i ≤ int32Max) : inRange 1 0x7FFFFFFF (toWord i) :=
    inRange_toWord hi (by decide) (by decide)
  have hnl {i : Int} (hi : 1 ≤ i ∧ i ≤ int32Max) : inRange 0 0x00FFFFFF (toWord (nlOfInv P i)) :=
    inRange_toWord (nlOfInv_range hP hi) (by decide) (by decide)
  have henergy {e : Int} (he : 0 ≤ e ∧ e ≤ int32Max) : inRange 0 0x7FFFFFFF (toWord e) :=
    inRange_toWord he (by decide) (by decide)
  have hquality (r : Int) : inRange 0 32767 (toWord (bandQuality P r)) :=
    inRange_toWord (sigmoid15_range hP _) (by decide) (by decide)
  exact {
    counter := inRange_toWord (nextCounter_range hP hcounter) (by decide) (by decide)
    nl := ⟨hnl hi0, hnl hi1, hnl hi2, hnl hi3⟩
    invNl := ⟨hreg hi0, hreg hi1, hreg hi2, hreg hi3⟩
    noiseBias := ⟨hbias0, hbias1, hbias2, hbias3⟩
    xnrgSubfr := ⟨henergy he0, henergy he1, henergy he2, henergy he3⟩
    qualityQ15 := ⟨hquality _, hquality _, hquality _, hquality _⟩
    saQ8 :=
      inRange_toWord (activityQ8_range (scaledActivity_nonneg hP (rawActivity_range hP _ _))) (by decide) (by decide) }

end BothMultiplies

end Sys2Proof.Machine
end

section
/-! PROOFS. The invariant `Inv` (R44): every setter, every store and every effect of a command keeps its part, hence every
step, hence every host script from reset. -/

namespace Sys2Proof.Machine

open Sys2Proof.Config

/-! ### Setters -/

theorem clampUnsigned_le (hi : Nat) (w : Word) : (clampUnsigned hi w).toNat ≤ hi := by
  rw [clampUnsigned, BitVec.toNat_ofNat]
  exact (Nat.mod_le _ _).trans (min_le_right _ _)

theorem clampSigned_range {lo hi : Int} (hlo : 0 ≤ lo) (hle : lo ≤ hi) (hhi : hi < 2 ^ 31) (w : Word) :
    lo ≤ (clampSigned lo hi w).toNat ∧ ((clampSigned lo hi w).toNat : Int) ≤ hi := by
  rw [clampSigned, toWord, BitVec.toNat_ofInt]
  omega

theorem writeConfig_keeps_configOk {c : ConfigRegs} (h : ConfigOk c) (w : Word) (r : Reg) :
    ConfigOk (writeConfig c w r) := by
  cases r with
  | cfgFsHz =>
    rw [writeConfig]
    split
    · next hw => exact { h with fsHz := hw }
    · exact h
  | cfgChannels =>
    rw [writeConfig]
    split
    · next hw => exact { h with channels := hw }
    · exact h
  | cfgFrameSize => exact { h with frameSize := clampUnsigned_le _ w }
  | cfgCnIntervalQ1 => exact { h with cnIntervalQ1 := clampUnsigned_le _ w }
  | cfgBitrate =>
    have hr := clampSigned_range (lo := 6000) (hi := 510000) (by decide) (by decide) (by decide) w
    exact { h with bitrate := by simp only [writeConfig, specParams]; omega }
  | cfgComplexity =>
    have hr := clampSigned_range (lo := 0) (hi := 10) (by decide) (by decide) (by decide) w
    exact { h with complexity := by simp only [writeConfig, specParams]; omega }
  | cfgLossPct =>
    have hr := clampSigned_range (lo := 0) (hi := 100) (by decide) (by decide) (by decide) w
    exact { h with lossPct := by simp only [writeConfig, specParams]; omega }
  | cfgLsbDepth =>
    have hr := clampSigned_range (lo := 8) (hi := 24) (by decide) (by decide) (by decide) w
    exact { h with lsbDepth := by simp only [writeConfig, specParams]; omega }
  | cfgMode | cfgBandwidth | cfgRateMode | cfgFlags => exact { h with }
  | _ => exact h

theorem writeCollab_keeps_collabOk {c : CollabRegs} (h : CollabOk c) (w : Word) (r : Reg) :
    CollabOk (writeCollab c w r) := by
  cases r with
  | anaProbQ15 => exact { h with anaProbQ15 := clampUnsigned_le _ w }
  | outCap => exact { h with outCap := clampUnsigned_le _ w }
  | pktLen => exact { h with pktLen := clampUnsigned_le _ w }
  | smpCount => exact { h with smpCount := clampUnsigned_le _ w }
  | anaValid | subencStatus | frmLen0 | frmLen1 | frmLen2 => exact { h with }
  | _ => exact h

/-! ### Stores -/

theorem storeBytes_keeps_memOk {m : Memory} {a : Nat} {bs : List Byte} (h : MemOk m)
    (hin : ∀ k, k < bs.length → isBufferByte (a + k)) : MemOk (Memory.storeBytes m a bs) where
  wf := wf_storeBytes h.wf a bs
  inBuffers c hc := by
    obtain hm | hm := mem_splice hc
    · exact h.inBuffers c hm
    · obtain ⟨hlo, hhi⟩ := mem_byteCells hm
      have := hin (c.1 - a) (by omega)
      rwa [Nat.add_sub_cancel' hlo] at this

/-- Samples stored in `SMP` or `FECBUF`, at word addresses. -/
theorem storeSamples_keeps_memOk {m : Memory} {a n : Nat} {vs : List (BitVec 24)} (h : MemOk m) (halign : a % 4 = 0)
    (hn : vs.length ≤ n)
    (hin : (smpBase ≤ a ∧ a + 4 * n ≤ smpBase + 4 * smpCap) ∨ (fecBase ≤ a ∧ a + 4 * n ≤ fecBase + 4 * smpCap)) :
    MemOk (Memory.storeSamples m a vs) where
  wf := wf_storeSamples h.wf a vs
  inBuffers c hc := by
    obtain hm | hm := mem_splice hc
    · exact h.inBuffers c hm
    · obtain ⟨hlo, hhi, hbyte⟩ := mem_sampleCells hm
      obtain hsmp | hfec := hin
      · exact .inr (.inr (.inl ⟨by omega, by omega, by omega⟩))
      · exact .inr (.inr (.inr ⟨by omega, by omega, by omega⟩))

/-- A packet of at most `PKT_CAP` bytes stays inside `PKT`. -/
theorem storePacket_keeps_memOk {m : Memory} {q : List Byte} (h : MemOk m) (hq : q.length ≤ pktCap) :
    MemOk (Memory.storeBytes m pktBase q) :=
  storeBytes_keeps_memOk h fun k hk => .inl ⟨by omega, by omega⟩

/-! ### Host writes and reset -/

theorem inv_hostWrite {s : State} {a : Nat} {w : Word} (h : Inv s) (halign : a % 4 = 0) : Inv (hostWrite s a w) := by
  obtain ⟨r, heq⟩ | ⟨htarget, heq⟩ | ⟨htarget, heq⟩ | heq := hostWrite_cases s a w <;> rw [heq]
  · exact { h with cfg := writeConfig_keeps_configOk h.cfg w r, col := writeCollab_keeps_collabOk h.col w r }
  · refine { h with mem := storeBytes_keeps_memOk h.mem fun k hk => ?_ }
    have hk4 : k < 4 := hk
    have hbuf := of_target_bytes htarget
    simp only [isBufferByte, pktBase, pktCap_eq, frmBase, frmSlots_eq, frmSlotBytes_eq] at hbuf ⊢
    omega
  · have hbuf := of_target_sample htarget
    refine { h with mem := storeSamples_keeps_memOk (n := 1) h.mem halign (le_refl 1) (.inl ⟨hbuf.1, ?_⟩) }
    simp only [smpBase, smpCap_eq] at hbuf ⊢
    omega
  · exact h

theorem configOk_reset : ConfigOk resetConfig :=
  ⟨by decide, by decide, by decide, by decide, by decide, by decide, by decide, by decide⟩

theorem collabOk_reset : CollabOk resetCollab := ⟨by decide, by decide, by decide, by decide⟩

theorem vadOk_resetVad : VadOk resetVad :=
  ⟨by decide, by decide, by decide, by decide, by decide, by decide, by decide⟩

theorem dtxOk_reset : DtxOk resetDtx := ⟨by decide, by decide, by decide, by decide, by decide⟩

theorem fecOk_reset : FecOk resetFec := ⟨by decide, by decide⟩

theorem memOk_nil : MemOk [] := ⟨List.Pairwise.nil, fun _ h => absurd h List.not_mem_nil⟩

theorem inv_hardwareReset (s : State) : Inv (State.hardwareReset specNum s) :=
  ⟨configOk_reset, collabOk_reset, vadOk_resetVad, dtxOk_reset, fecOk_reset, memOk_nil⟩

/-- Settles O13, record by record. -/
theorem resetSatisfiesTheInvariant : Obligations.ResetSatisfiesTheInvariant :=
  ⟨configOk_reset, collabOk_reset, vadOk_resetVad, dtxOk_reset, fecOk_reset, memOk_nil⟩

/-! ### The DTX record -/

theorem natAbs_le_of_mem_smpValues {s : State} {n : Nat} {v : Int} (h : v ∈ s.smpValues n) : v.natAbs ≤ 2 ^ 23 := by
  obtain ⟨b, -, rfl⟩ := List.mem_map.mp h
  have hlo := BitVec.le_toInt b
  have hhi := BitVec.toInt_lt (x := b)
  omega

/-- R165 (log entry 11): the mean square of 24 bit samples. -/
theorem frameEnergy_le {xs : List Int} (h : ∀ v ∈ xs, v.natAbs ≤ 2 ^ 23) : frameEnergy xs ≤ 2 ^ 46 := by
  have hsq : ∀ y ∈ xs.map (fun v => v.natAbs * v.natAbs), y ≤ 2 ^ 46 := by
    intro y hy
    obtain ⟨v, hv, rfl⟩ := List.mem_map.mp hy
    exact (Nat.mul_le_mul (h v hv) (h v hv)).trans (by decide)
  have hsum := List.sum_le_card_nsmul _ _ hsq
  rw [List.length_map, smul_eq_mul] at hsum
  exact Nat.div_le_of_le_mul hsum

theorem trackPeak_le {P : NumCfg} {silence anaValid : Bool} {prob peak e bound : Nat} (hdecay : P.peakDecayQ15 ≤ 2 ^ 15)
    (hp : peak ≤ bound) (he : e ≤ bound) : trackPeak P silence anaValid prob peak e ≤ bound := by
  unfold trackPeak
  split
  · refine max_le ((Nat.div_le_of_le_mul ?_).trans hp) he
    rw [Nat.mul_comm]
    exact Nat.mul_le_mul_right _ hdecay
  · exact hp

/-- The state machine, enabled or not, keeps the duration within 600 ms and never raises the peak (R168, R171). -/
theorem decision_range (dtxEn active was : Bool) (dur peak d : Nat) :
    (if dtxEn then decideDtx specNum active was dur peak d else decideOff peak).dur ≤ 1200 ∧
    (if dtxEn then decideDtx specNum active was dur peak d else decideOff peak).peak ≤ peak := by
  have hT : specNum.dtxTQ1 = 400 := rfl
  have hTmax : specNum.dtxTmaxQ1 = 1200 := rfl
  cases dtxEn with
  | false => exact ⟨Nat.zero_le _, le_refl _⟩
  | true =>
    rw [if_pos rfl, decideDtx, hT, hTmax]
    split_ifs with hactive hwas hshort hlong <;> simp only <;> omega

/-- Comfort noise is due only in a suppressed frame (R169). -/
theorem suppress_of_scheduleCn {suppress : Bool} {elapsed d interval : Nat}
    (h : (scheduleCn suppress elapsed d interval).1 = true) : suppress = true := by
  cases suppress with
  | true => rfl
  | false => cases h

theorem toNat_ofNat_le {w n bound : Nat} (h : n ≤ bound) : (BitVec.ofNat w n).toNat ≤ bound := by
  rw [BitVec.toNat_ofNat]
  exact (Nat.mod_le _ _).trans h

theorem decideFrame_keeps_dtxOk {s : State} {fs : Nat} {xs : List Int} (h : DtxOk s.dtx)
    (hxs : ∀ v ∈ xs, v.natAbs ≤ 2 ^ 23) : DtxOk (decideFrame specNum s fs xs).state.dtx := by
  have he := frameEnergy_le hxs
  have hpeak (silence : Bool) := trackPeak_le (P := specNum) (silence := silence) (anaValid := s.col.anaValid)
    (prob := s.col.anaProbQ15.toNat) (by decide) h.peak he
  have hdec (active : Bool) (peak : Nat) :=
    decision_range s.cfg.flags.dtxEn active s.dtx.stat.inDtx s.dtx.durQ1.toNat peak (frameDurQ1 xs.length fs)
  exact {
    durQ1 := toNat_ofNat_le (hdec _ _).1
    suppress := rfl
    emitCn := suppress_of_scheduleCn
    peak := toNat_ofNat_le ((hdec _ _).2.trans (hpeak _))
    energy := toNat_ofNat_le he }

/-! ### Commands -/

theorem recordFrame_keeps_memOk {s : State} (wasActive : Bool) (h : MemOk s.mem) (hcap : s.io.arg0.toNat ≤ smpCap) :
    MemOk (recordFrame s s.io.arg0 wasActive).mem := by
  have hsamples : (s.samplesFrom smpBase s.io.arg0.toNat).length ≤ smpCap := by
    rwa [State.samplesFrom, List.length_map, List.length_range]
  unfold recordFrame
  split
  · exact storeSamples_keeps_memOk h (by decide) hsamples (.inr ⟨le_refl _, le_refl _⟩)
  · exact h

theorem recordedFec_fecOk {s : State} {wasActive : Bool} (hpos : 0 < s.io.arg0.toNat) (hcap : s.io.arg0.toNat ≤ smpCap) :
    FecOk (recordedFec s s.io.arg0 wasActive) := by
  unfold recordedFec
  cases s.cfg.flags.fecEn with
  | true => exact ⟨hcap, fun _ => hpos⟩
  | false => exact ⟨Nat.zero_le _, fun h => absurd h Bool.false_ne_true⟩

/-- Every effect of a command keeps the invariant: one case for each. -/
theorem CommandEffect.keeps_inv {i : Instr} {s u : State} (hu : CommandEffect specNum s i u) (h : Inv s) : Inv u := by
  cases hu with
  | keeps => exact h
  | reset => exact { h with dtx := dtxOk_reset, fec := fecOk_reset }
  | vadInit => exact { h with vad := vadOk_resetVad }
  | vadEval hn =>
    exact { h with vad := vadFrame_keeps_vadOk (.inl rfl) ((length_smpValues _ _).trans_le hn) h.vad }
  | dtxDecide hn =>
    exact { h with
      vad := vadFrame_keeps_vadOk (.inl rfl) ((length_smpValues _ _).trans_le hn) h.vad
      dtx := decideFrame_keeps_dtxOk h.dtx fun _ hv => natAbs_le_of_mem_smpValues hv }
  | @fecRecord wasActive hpos hcap =>
    rw [recordFrame_eq]
    exact { h with
      dtx := { h.dtx with }
      fec := recordedFec_fecOk hpos hcap
      mem := recordFrame_keeps_memOk wasActive h.mem hcap }
  | packet hi hlen hcap =>
    have hpkt := hcap.trans h.col.outCap
    exact { h with
      col := { h.col with pktLen := toNat_ofNat_le hpkt }
      mem := storePacket_keeps_memOk h.mem (hlen.trans_le hpkt) }

theorem exec_keeps_inv {i : Instr} {s t : State} (hx : exec i s = .next t) (h : Inv s) : Inv t := by
  obtain ⟨u, r0, r1, hu, rfl⟩ | ⟨e, rfl⟩ := exec_effect hx
  · exact { hu.keeps_inv h with }
  · exact { h with }

/-! ### Steps and scripts -/

/-- Settles O14, by the cases of a step: the port keeps the invariant (`inv_hostWrite`, `inv_hardwareReset`), and so does
every command (`exec_keeps_inv`). -/
theorem everyStepKeepsTheInvariant : Obligations.EveryStepKeepsTheInvariant := by
  intro s t h hstep
  cases stepEffect_of_step hstep with
  | idle => exact h
  | hardwareReset => exact inv_hardwareReset _
  | read => exact { h with }
  | write hp hcmd halign => exact inv_hostWrite { h with } halign
  | command hp hd hx => exact exec_keeps_inv hx { h with }
  | illegal => exact { h with }

/-- What every step of a machine keeps holds after every run. -/
theorem run_keeps {M : Host.Core} {I : M.State → Prop} (hstep : ∀ s t, I s → M.step s = .next t → I t) {n : Nat}
    {s t : M.State} (hs : I s) (hrun : M.run n s = .next t) : I t := by
  induction n generalizing s with
  | zero =>
    cases hrun
    exact hs
  | succ n ih =>
    rw [Host.Core.run] at hrun
    split at hrun
    · next u hu => exact ih (hstep s u hs hu) hrun
    · cases hrun
    · cases hrun

/-- The list of R44 is part of the invariant. -/
theorem Inv.ranges {s : State} (h : Inv s) : Ranges s where
  bitrate := h.cfg.bitrate
  complexity := h.cfg.complexity
  lossPct := h.cfg.lossPct
  lsbDepth := h.cfg.lsbDepth
  saQ8 := h.vad.saQ8
  qualityQ15 := h.vad.qualityQ15
  nl := h.vad.nl
  invNl := by
    obtain ⟨h0, h1, h2, h3⟩ := h.vad.invNl
    exact ⟨h0.1, h1.1, h2.1, h3.1⟩
  durQ1 := h.dtx.durQ1
  havePrev := h.fec.havePrev
  pktLen := h.col.pktLen
  smpCount := h.col.smpCount
  outCap := h.col.outCap

/-- Settles O15: the invariant holds with any script waiting after reset, and every step keeps it. -/
theorem rangesHoldUnderEveryHostScript : Obligations.RangesHoldUnderEveryHostScript := by
  intro script n t hrun
  have hstart : Inv (withScript script) := { resetSatisfiesTheInvariant with }
  exact (run_keeps (M := Sys2Proof.core) (I := Inv) everyStepKeepsTheInvariant hstart hrun).ranges

end Sys2Proof.Machine
end

section
/-! PROOFS. How register contents stand in words: the codes of the enumerations (R26, R27, R30, R210), flag words (R32, R36,
R40, R41) and 64 bit registers (R40). -/

namespace Sys2Proof.Machine

open Sys2Proof.Config

/-! ### Enumerations and their codes -/

theorem Mode.ofWord?_eq_some {w : Word} {m : Mode} : Mode.ofWord? w = some m ↔ m.code = w := by
  constructor
  · intro h
    unfold Mode.ofWord? at h
    split at h <;> cases h <;> next hw => exact BitVec.eq_of_toNat_eq hw.symm
  · rintro rfl
    cases m <;> rfl

theorem Coder.ofWord?_eq_some {w : Word} {c : Coder} : Coder.ofWord? w = some c ↔ c.code = w := by
  constructor
  · intro h
    unfold Coder.ofWord? at h
    split at h <;> cases h <;> next hw => exact BitVec.eq_of_toNat_eq hw.symm
  · rintro rfl
    cases c <;> rfl

theorem Bandwidth.ofWord?_eq_some {w : Word} {b : Bandwidth} : Bandwidth.ofWord? w = some b ↔ b.code = w := by
  constructor
  · intro h
    unfold Bandwidth.ofWord? at h
    split at h <;> cases h <;> next hw => exact BitVec.eq_of_toNat_eq hw.symm
  · rintro rfl
    cases b <;> rfl

theorem RateMode.ofWord?_eq_some {w : Word} {r : RateMode} : RateMode.ofWord? w = some r ↔ r.code = w := by
  constructor
  · intro h
    unfold RateMode.ofWord? at h
    split at h <;> cases h <;> next hw => exact BitVec.eq_of_toNat_eq hw.symm
  · rintro rfl
    cases r <;> rfl

theorem Mode.ofWord?_eq_none {w : Word} : Mode.ofWord? w = none ↔ 3 < w.toNat := by
  unfold Mode.ofWord?
  split
  case h_5 h0 h1 h2 h3 =>
    change _ ≠ _ at h0 h1 h2 h3
    simp only [true_iff]
    omega
  all_goals next hw => simp [hw]

theorem Bandwidth.ofWord?_eq_none {w : Word} : Bandwidth.ofWord? w = none ↔ 4 < w.toNat := by
  unfold Bandwidth.ofWord?
  split
  case h_6 h0 h1 h2 h3 h4 =>
    change _ ≠ _ at h0 h1 h2 h3 h4
    simp only [true_iff]
    omega
  all_goals next hw => simp [hw]

theorem RateMode.ofWord?_eq_none {w : Word} : RateMode.ofWord? w = none ↔ 2 < w.toNat := by
  unfold RateMode.ofWord?
  split
  case h_4 h0 h1 h2 =>
    change _ ≠ _ at h0 h1 h2
    simp only [true_iff]
    omega
  all_goals next hw => simp [hw]

/-- Settles O54: the table row by row, the sets element by element, the codes by `ofWord?_eq_some`. -/
theorem cfgIndexIsTheConfigurationTable : Obligations.CfgIndexIsTheConfigurationTable := by
  refine ⟨by decide, by decide, by decide, by decide, by decide, by decide, by decide, by decide, by decide, ?_, ?_, ?_,
    ⟨rfl, rfl, rfl, rfl⟩, ⟨rfl, rfl, rfl⟩, ⟨rfl, rfl, rfl, rfl, rfl⟩, ⟨rfl, rfl, rfl⟩, ?_⟩
  · intro n
    simp [unitSet]
  · intro bw
    cases bw <;> decide
  · intro n
    simp [validSizes]
  · exact fun w => ⟨fun _ => Mode.ofWord?_eq_some, fun _ => Coder.ofWord?_eq_some, fun _ => Bandwidth.ofWord?_eq_some,
      fun _ => RateMode.ofWord?_eq_some⟩

/-! ### Flags as words -/

theorem toNat_flagBit_zero (b : Bool) : (flagBit b 0).toNat = b.toNat := by
  cases b <;> rfl

theorem toNat_cfgFlags_word (f : CfgFlags) :
    f.word.toNat = f.fecEn.toNat + 2 * f.dtxEn.toNat + 4 * f.lfe.toNat + 8 * f.predDisabled.toNat := by
  obtain ⟨b0, b1, b2, b3⟩ := f
  revert b0 b1 b2 b3
  decide

theorem toNat_statusReg_word (r : StatusReg) : r.word.toNat = r.err.toNat + 256 * r.valid.toNat := by
  obtain ⟨err, valid⟩ := r
  revert err valid
  decide

theorem toNat_dtxStat_word (t : DtxStat) :
    t.word.toNat = t.inDtx.toNat + 2 * t.lastSuppress.toNat + 4 * t.lastEmitCn.toNat + 8 * t.lastActive.toNat
      + 16 * t.lastSilence.toNat + 256 * t.decisionValid.toNat := by
  obtain ⟨b0, b1, b2, b3, b4, b8⟩ := t
  revert b0 b1 b2 b3 b4 b8
  decide

theorem toNat_fecRegs_statWord (f : FecRegs) : f.statWord.toNat = f.havePrev.toNat + 2 * f.prevActive.toNat := by
  unfold FecRegs.statWord
  cases f.havePrev <;> cases f.prevActive <;> rfl

/-- A flag register keeps one bit of the written word. -/
theorem flagBit_getLsbD (w : Word) (k : Nat) : flagBit (w.getLsbD k) k = w &&& BitVec.twoPow 32 k := by
  rw [BitVec.and_twoPow]
  rfl

theorem word_ofWord (w : Word) : (CfgFlags.ofWord w).word = w &&& 0xF := by
  simp only [CfgFlags.word, CfgFlags.ofWord, flagBit_getLsbD, ← BitVec.and_or_distrib_left]
  rfl

theorem setWidth_extractLsb'_sixteen (w : Word) : (w.extractLsb' 0 16).setWidth 32 = w &&& 0xFFFF := by
  apply BitVec.eq_of_toNat_eq
  have hmod := Nat.and_two_pow_sub_one_eq_mod w.toNat 16
  simp only [BitVec.toNat_setWidth, BitVec.extractLsb'_toNat, BitVec.toNat_and, Nat.shiftRight_zero]
  have hlt := Nat.mod_lt w.toNat (show 0 < 2 ^ 16 by decide)
  rw [Nat.mod_eq_of_lt (by omega)]
  exact hmod.symm

/-- The two halves of a 64 bit register (R40). -/
theorem toNat_halves (x : Word64) :
    (x.extractLsb' 0 32).toNat + 2 ^ 32 * (x.extractLsb' 32 32).toNat = x.toNat := by
  have hx := x.isLt
  simp only [BitVec.extractLsb'_toNat, Nat.shiftRight_eq_div_pow]
  omega

end Sys2Proof.Machine
end

section
/-! PROOFS. The slave port's accesses (R22, R36, R37, R62 to R65, R256, R262, R263, R280): what is counted, what a read
returns, what a write stores, what hardware reset restores. -/

namespace Sys2Proof.Machine

open Sys2Proof.Config

/-! ### Completions -/

/-- Every command completes once (R22, R256). -/
theorem exec_completes {i : Instr} {s t : State} (h : exec i s = .next t) :
    t.io.cmd = encode i ∧ t.io.cmdSeq = s.io.cmdSeq + 1 ∧ t.io.status.valid = true := by
  obtain ⟨u, r0, r1, hu, rfl⟩ | ⟨e, rfl⟩ := exec_effect h
  · rw [hu.frame]
    exact ⟨rfl, rfl, rfl⟩
  · exact ⟨rfl, rfl, rfl⟩

/-- The completion registers, which no host write reaches (R74). -/
structure SameCompletion (t s : CommandRegs) : Prop where
  cmd : t.cmd = s.cmd
  cmdSeq : t.cmdSeq = s.cmdSeq
  status : t.status = s.status
  res0 : t.res0 = s.res0
  res1 : t.res1 = s.res1
  errInfo : t.errInfo = s.errInfo

theorem writeCommand_keeps_completion (c : CommandRegs) (w : Word) (r : Reg) : SameCompletion (writeCommand c w r) c := by
  cases r <;> exact ⟨rfl, rfl, rfl, rfl, rfl, rfl⟩

theorem hostWrite_keeps_completion (s : State) (a : Nat) (w : Word) : SameCompletion (hostWrite s a w).io s.io := by
  obtain ⟨r, heq⟩ | ⟨-, heq⟩ | ⟨-, heq⟩ | heq := hostWrite_cases s a w <;> rw [heq]
  · exact writeCommand_keeps_completion s.io w r
  · exact ⟨rfl, rfl, rfl, rfl, rfl, rfl⟩
  · exact ⟨rfl, rfl, rfl, rfl, rfl, rfl⟩
  · exact ⟨rfl, rfl, rfl, rfl, rfl, rfl⟩

/-- A write of `CMD` runs the command it decodes to, or is an illegal command (R80, R83). -/
theorem step_write_cmd {s : State} {w : Word} {rest : List HostAccess} (hp : s.pending = .write 0x040 4 w :: rest) :
    (∃ i, decode w = .ok i ∧ step s = exec i { s with pending := rest, port := .written }) ∨
    step s = .next (illegalCommand { s with pending := rest, port := .written } w) := by
  rw [step, serve_write_cmd specNum hp, outcomeOf]
  cases hd : decode w with
  | ok i => exact .inl ⟨i, rfl, rfl⟩
  | error e => exact .inr rfl

/-- Settles O6: the command's word is the written word (`encode_of_decode`), its completion counts (`exec_completes`); the
other accesses are a read or a write elsewhere (`hostWrite_keeps_completion`). -/
theorem cmdSeqCountsTheWritesOfCmd : Obligations.CmdSeqCountsTheWritesOfCmd := by
  refine ⟨fun s w rest hp => ?_, fun s t a rest hp hcmd hreset hstep => ?_⟩
  · obtain ⟨i, hd, hstep⟩ | hstep := step_write_cmd hp
    · rw [hstep, exec_eq_finish]
      obtain ⟨hc, hseq, hvalid⟩ := exec_completes (exec_eq_finish i { s with pending := rest, port := .written })
      exact ⟨_, rfl, hc.trans (encode_of_decode hd), hseq, hvalid⟩
    · exact ⟨_, hstep, rfl, rfl, rfl⟩
  · cases stepEffect_of_step hstep with
    | idle hp' => exact ⟨rfl, rfl, rfl, rfl, rfl, rfl⟩
    | hardwareReset hp' => exact absurd (List.cons.inj (hp.symm.trans hp')).1 hreset
    | read hp' => exact ⟨rfl, rfl, rfl, rfl, rfl, rfl⟩
    | @write addr w rest' hp' haddr halign =>
      obtain ⟨h1, h2, h3, h4, h5, h6⟩ := hostWrite_keeps_completion { s with pending := rest', port := .written } addr w
      exact ⟨h1, h2, h3, h4, h5, h6⟩
    | command hp' | illegal hp' => exact absurd (List.cons.inj (hp.symm.trans hp')).1 (hcmd _)

/-! ### Reads -/

theorem step_read {s : State} {addr : Nat} {rest : List HostAccess} (halign : addr % 4 = 0) (hspace : addr < 0x20000)
    (hp : s.pending = .read addr 4 :: rest) :
    step s = .next { s with pending := rest, port := .data (hostRead s addr) } := by
  have hlegal := (accessLegal_iff addr 4).mpr ⟨rfl, halign, hspace⟩
  simp only [step, serve, hp, hlegal, if_true, outcomeOf]

theorem step_write {s : State} {addr : Nat} {w : Word} {rest : List HostAccess} (halign : addr % 4 = 0)
    (hspace : addr < 0x20000) (hcmd : addr ≠ 0x040) (hp : s.pending = .write addr 4 w :: rest) :
    step s = .next (hostWrite { s with pending := rest, port := .written } addr w) := by
  have hlegal := (accessLegal_iff addr 4).mpr ⟨rfl, halign, hspace⟩
  simp only [step, serve, hp, hlegal, if_true, if_neg (show ¬ addr = Reg.cmd.addr from hcmd), outcomeOf]

theorem hostRead_byteBuffer {s : State} {a : Nat} (h : 0x1000 ≤ a ∧ a < 0x2F00) :
    hostRead s a = s.byteAt (a + 3) ++ s.byteAt (a + 2) ++ s.byteAt (a + 1) ++ s.byteAt a := by
  rw [hostRead, target_byteBuffer h]

theorem hostRead_sample {s : State} {a : Nat} (h : (0x8000 ≤ a ∧ a < 0xDA00) ∨ (0x10000 ≤ a ∧ a < 0x15A00)) :
    hostRead s a = (s.sampleAt a).signExtend 32 := by
  obtain hsmp | hfec := h
  · rw [hostRead, target_smp hsmp]
  · rw [hostRead, target_fecbuf hfec]

/-- A flag read as bit 0 of its register. -/
theorem toNat_hostRead_flag {s : State} {r : Reg} {b : Bool} (h : Reg.read s r = flagBit b 0) :
    (hostRead s r.addr).toNat = b.toNat := by
  rw [hostRead_addr, h, toNat_flagBit_zero]

/-- Settles O18: a register reads through `hostRead_addr`, the buffers through `hostRead_byteBuffer` and
`hostRead_sample`. -/
theorem hostReadHasNoSideEffect : Obligations.HostReadHasNoSideEffect := by
  have hreg := hostRead_addr
  refine ⟨fun s addr rest halign hspace => ⟨step_read halign hspace, fun w hcmd hp => step_write halign hspace hcmd hp⟩,
    fun s => ?_, fun s => ?_, fun s => ?_, fun s => ?_, fun s => ?_, fun s a _ => ⟨hostRead_byteBuffer, hostRead_sample⟩⟩
  · exact ⟨hreg s .cfgFsHz, hreg s .cfgChannels, hreg s .cfgMode, hreg s .cfgBandwidth, hreg s .cfgFrameSize,
      hreg s .cfgBitrate, hreg s .cfgRateMode, hreg s .cfgComplexity,
      (congrArg BitVec.toNat (hreg s .cfgFlags)).trans (toNat_cfgFlags_word s.cfg.flags),
      hreg s .cfgLossPct, hreg s .cfgLsbDepth, hreg s .cfgCnIntervalQ1⟩
  · exact ⟨toNat_hostRead_flag (r := .anaValid) rfl, hreg s .anaProbQ15, hreg s .subencStatus, hreg s .outCap,
      hreg s .pktLen, hreg s .smpCount, hreg s .frmLen0, hreg s .frmLen1, hreg s .frmLen2⟩
  · exact ⟨hreg s .cmd, hreg s .arg0, hreg s .arg1, hreg s .arg2, toNat_hostRead_flag (r := .irqEn) rfl,
      (congrArg BitVec.toNat (hreg s .status)).trans (toNat_statusReg_word s.io.status),
      hreg s .res0, hreg s .res1, hreg s .errInfo, hreg s .cmdSeq, toNat_hostRead_flag (r := .irqPend) rfl⟩
  · exact ⟨hreg s (.vadAna0 0), hreg s (.vadAna0 1), hreg s (.vadAna1 0), hreg s (.vadAna1 1), hreg s (.vadAna2 0),
      hreg s (.vadAna2 1), hreg s .vadHpState, hreg s .vadCounter,
      fun b => ⟨hreg s (.vadNl b), hreg s (.vadInvNl b), hreg s (.vadNrgRatioSmthQ8 b), hreg s (.vadNoiseBias b),
        hreg s (.vadXnrgSubfr b), hreg s (.vadQualityQ15 b)⟩,
      hreg s .vadSaQ8, hreg s .vadTiltQ15, toNat_hostRead_flag (r := .vadActive) rfl⟩
  · have hpeak := toNat_halves s.dtx.peak
    have henergy := toNat_halves s.dtx.energy
    rw [show s.dtx.peak.extractLsb' 0 32 = _ from (hreg s .dtxPeakLo).symm,
      show s.dtx.peak.extractLsb' 32 32 = _ from (hreg s .dtxPeakHi).symm] at hpeak
    rw [show s.dtx.energy.extractLsb' 0 32 = _ from (hreg s .dtxEnergyLo).symm,
      show s.dtx.energy.extractLsb' 32 32 = _ from (hreg s .dtxEnergyHi).symm] at henergy
    exact ⟨hreg s .dtxDurQ1, (congrArg BitVec.toNat (hreg s .dtxStat)).trans (toNat_dtxStat_word s.dtx.stat), hpeak,
      hreg s .dtxFrameDurQ1, hreg s .dtxCnElapsedQ1, henergy,
      (congrArg BitVec.toNat (hreg s .fecStat)).trans (toNat_fecRegs_statWord s.fec), hreg s .fecPrevLen,
      hreg s .fecFrameCount⟩

/-! ### Writes -/

theorem writeConfig_cfgFsHz (c : ConfigRegs) (w : Word) : writeConfig c w .cfgFsHz =
    { c with fsHz := if w.toNat ∈ [8000, 12000, 16000, 24000, 48000] then w else c.fsHz } := by
  change (if w.toNat ∈ [8000, 12000, 16000, 24000, 48000] then _ else _) = _
  split <;> rfl

theorem writeConfig_cfgChannels (c : ConfigRegs) (w : Word) :
    writeConfig c w .cfgChannels = { c with channels := if w = 1 ∨ w = 2 then w else c.channels } := by
  rw [writeConfig]
  split <;> rfl

/-- The mode after a write of `w` (R26). -/
theorem getD_modeOfWord? (w : Word) (m : Mode) : (Mode.ofWord? w).getD m =
    if w = 0 then .auto else if w = 1 then .speech else if w = 2 then .transform else if w = 3 then .hybrid else m := by
  cases h : Mode.ofWord? w with
  | some m' =>
    obtain rfl := Mode.ofWord?_eq_some.mp h
    cases m' <;> rfl
  | none =>
    have hw := Mode.ofWord?_eq_none.mp h
    rw [if_neg, if_neg, if_neg, if_neg]
    · rfl
    all_goals rintro rfl; exact absurd hw (by decide)

theorem getD_bandwidthOfWord? (w : Word) (b : Bandwidth) : (Bandwidth.ofWord? w).getD b =
    if w = 0 then .narrow else if w = 1 then .medium else if w = 2 then .wide else if w = 3 then .superWide
      else if w = 4 then .full else b := by
  cases h : Bandwidth.ofWord? w with
  | some b' =>
    obtain rfl := Bandwidth.ofWord?_eq_some.mp h
    cases b' <;> rfl
  | none =>
    have hw := Bandwidth.ofWord?_eq_none.mp h
    rw [if_neg, if_neg, if_neg, if_neg, if_neg]
    · rfl
    all_goals rintro rfl; exact absurd hw (by decide)

theorem getD_rateModeOfWord? (w : Word) (r : RateMode) : (RateMode.ofWord? w).getD r =
    if w = 0 then .vbr else if w = 1 then .cvbr else if w = 2 then .cbr else r := by
  cases h : RateMode.ofWord? w with
  | some r' =>
    obtain rfl := RateMode.ofWord?_eq_some.mp h
    cases r' <;> rfl
  | none =>
    have hw := RateMode.ofWord?_eq_none.mp h
    rw [if_neg, if_neg, if_neg]
    · rfl
    all_goals rintro rfl; exact absurd hw (by decide)

/-- The code that an enumeration register holds after a write of `w`, from how the enumeration reads words. -/
theorem code_getD {α : Type} {code : α → Word} {ofWord? : Word → Option α} {k : Nat} {w : Word}
    (hsome : ∀ {a}, ofWord? w = some a ↔ code a = w) (hnone : ofWord? w = none ↔ k < w.toNat) (a : α) :
    code ((ofWord? w).getD a) = if w.toNat ≤ k then w else code a := by
  cases h : ofWord? w with
  | some a' =>
    have hle : w.toNat ≤ k := by
      by_contra hlt
      rw [hnone.mpr (Nat.lt_of_not_le hlt)] at h
      cases h
    rw [if_pos hle]
    exact hsome.mp h
  | none =>
    rw [if_neg (Nat.not_le.mpr (hnone.mp h))]
    rfl

/-- A register reads back what its setter stored. -/
theorem hostRead_hostWrite_addr (s : State) (w : Word) (r : Reg) :
    hostRead (hostWrite s r.addr w) r.addr = Reg.read (Reg.write s w r) r := by
  rw [hostWrite_addr, hostRead_addr]

theorem flagBit_getLsbD_zero (w : Word) : flagBit (w.getLsbD 0) 0 = w &&& 1 := flagBit_getLsbD w 0

/-- Settles O19: the setters' values by `hostWrite_addr`, their read-back by `hostRead_hostWrite_addr`. -/
theorem registersStoreTheLegalisedValue : Obligations.RegistersStoreTheLegalisedValue := by
  refine ⟨fun s w => ?_, fun s w => ?_, fun s w => ?_⟩
  · have hback := hostRead_hostWrite_addr s w
    have hfs : hostRead s 0x000 = s.cfg.fsHz := hostRead_addr s .cfgFsHz
    have hchannels : hostRead s 0x004 = s.cfg.channels := hostRead_addr s .cfgChannels
    have hmode : hostRead s 0x008 = s.cfg.mode.code := hostRead_addr s .cfgMode
    have hbandwidth : hostRead s 0x00C = s.cfg.bandwidth.code := hostRead_addr s .cfgBandwidth
    have hrate : hostRead s 0x018 = s.cfg.rateMode.code := hostRead_addr s .cfgRateMode
    rw [hfs, hchannels, hmode, hbandwidth, hrate]
    exact ⟨(hback .cfgFsHz).trans (congrArg ConfigRegs.fsHz (writeConfig_cfgFsHz s.cfg w)),
      (hback .cfgChannels).trans (congrArg ConfigRegs.channels (writeConfig_cfgChannels s.cfg w)),
      (hback .cfgMode).trans (code_getD Mode.ofWord?_eq_some Mode.ofWord?_eq_none s.cfg.mode),
      (hback .cfgBandwidth).trans (code_getD Bandwidth.ofWord?_eq_some Bandwidth.ofWord?_eq_none s.cfg.bandwidth),
      hback .cfgFrameSize, hback .cfgBitrate,
      (hback .cfgRateMode).trans (code_getD RateMode.ofWord?_eq_some RateMode.ofWord?_eq_none s.cfg.rateMode),
      hback .cfgComplexity, (hback .cfgFlags).trans (word_ofWord w), hback .cfgLossPct, hback .cfgLsbDepth,
      hback .cfgCnIntervalQ1, hback .arg0, hback .arg1, hback .arg2,
      (hback .irqEn).trans (flagBit_getLsbD_zero w), (hback .anaValid).trans (flagBit_getLsbD_zero w),
      hback .anaProbQ15, hback .subencStatus, hback .outCap, hback .pktLen, hback .smpCount,
      (hback .frmLen0).trans (setWidth_extractLsb'_sixteen w), (hback .frmLen1).trans (setWidth_extractLsb'_sixteen w),
      (hback .frmLen2).trans (setWidth_extractLsb'_sixteen w)⟩
  · have hset (r : Reg) := hostWrite_addr s r w
    have hcfg {r : Reg} {c : ConfigRegs} (hc : writeConfig s.cfg w r = c) (hio : writeCommand s.io w r = s.io)
        (hcol : writeCollab s.col w r = s.col) : hostWrite s r.addr w = { s with cfg := c } := by
      rw [hset, Reg.write, hc, hio, hcol]
    exact ⟨hcfg (writeConfig_cfgFsHz s.cfg w) rfl rfl, hcfg (writeConfig_cfgChannels s.cfg w) rfl rfl,
      hcfg (r := .cfgMode) (by rw [writeConfig, getD_modeOfWord?]) rfl rfl,
      hcfg (r := .cfgBandwidth) (by rw [writeConfig, getD_bandwidthOfWord?]) rfl rfl, hset .cfgFrameSize,
      hset .cfgBitrate, hcfg (r := .cfgRateMode) (by rw [writeConfig, getD_rateModeOfWord?]) rfl rfl,
      hset .cfgComplexity, hset .cfgFlags, hset .cfgLossPct, hset .cfgLsbDepth, hset .cfgCnIntervalQ1⟩
  · have hset (r : Reg) := hostWrite_addr s r w
    exact ⟨hset .arg0, hset .arg1, hset .arg2, hset .irqEn, hset .irqPend, hset .anaValid, hset .anaProbQ15,
      hset .subencStatus, hset .outCap, hset .pktLen, hset .smpCount, hset .frmLen0, hset .frmLen1, hset .frmLen2⟩

/-! ### The interrupt -/

theorem hostWrite_irqPend (s : State) (w : Word) :
    hostWrite s 0x068 w = { s with io := { s.io with irqPend := s.io.irqPend && !w.getLsbD 0 } } :=
  hostWrite_addr s .irqPend w

/-- Settles O21, by what a write of `IRQ_PEND` does (`hostWrite_irqPend`). -/
theorem interruptIsPendingUnderEnableAndWriteOneToClear :
    Obligations.InterruptIsPendingUnderEnableAndWriteOneToClear := by
  intro s w
  rw [hostWrite_irqPend]
  refine ⟨rfl, rfl, Bool.and_eq_true_iff, fun hw => ?_⟩
  simp [State.irq, hw]

/-! ### Hardware reset -/

theorem serve_hardwareReset (P : NumCfg) {s : State} {rest : List HostAccess} (hp : s.pending = .hardwareReset :: rest) :
    serve P s = .done (State.hardwareReset P { s with pending := rest }) := by
  simp only [serve, hp]

theorem stepWith_hardwareReset (P : NumCfg) {s : State} {rest : List HostAccess}
    (hp : s.pending = .hardwareReset :: rest) :
    stepWith P s = .next (State.hardwareReset P { s with pending := rest }) := by
  rw [stepWith, serve_hardwareReset P hp, outcomeOf]

/-- Settles O25: the step is `State.hardwareReset`, whose VAD record is `vadInit P` as after `VAD.INIT`; at
`specNum` it is the column `resetVad_eq`. -/
theorem hardwareResetRestoresEveryRegister : Obligations.HardwareResetRestoresEveryRegister := by
  intro s rest hp
  have hstep : step s = _ := (step_eq_stepWith s).trans (stepWith_hardwareReset specNum hp)
  exact ⟨⟨_, hstep, rfl, rfl, rfl, resetVad_eq, rfl, rfl, rfl, rfl, rfl, rfl, rfl⟩,
    fun P => ⟨_, execWith_eq_finish P .vadInit s, stepWith_hardwareReset P hp⟩⟩

end Sys2Proof.Machine
end

section
/-! PROOFS. Family 20_memory.md: the slave port refuses what it does not take (R62) and runs every script of what it takes
(R250, R287); a write reaches one register or one word of a buffer (R63 to R65, R71, R74); a command writes `PKT` or
`FECBUF` alone (R70, R72). -/

namespace Sys2Proof.Machine

open Sys2Proof.Config

/-! ### Accesses the port refuses -/

theorem step_refused_read {s : State} {addr size : Nat} {rest : List HostAccess} (hbad : accessLegal addr size = false)
    (hp : s.pending = .read addr size :: rest) : step s = .refused (.busError addr size) := by
  simp only [step, serve, hp, hbad, Bool.false_eq_true, if_false, outcomeOf]

theorem step_refused_write {s : State} {addr size : Nat} {w : Word} {rest : List HostAccess}
    (hbad : accessLegal addr size = false) (hp : s.pending = .write addr size w :: rest) :
    step s = .refused (.busError addr size) := by
  simp only [step, serve, hp, hbad, Bool.false_eq_true, if_false, outcomeOf]

/-- Settles O17: the three ways to be bad are the negation of `accessLegal_iff`. -/
theorem badBusAccessIsRefused : Obligations.BadBusAccessIsRefused := by
  intro s addr size rest hways
  have hbad : accessLegal addr size = false := by
    rw [← Bool.not_eq_true, accessLegal_iff]
    omega
  exact ⟨step_refused_read hbad, fun w => step_refused_write hbad⟩

/-! ### Legal scripts run to their end -/

theorem hostWrite_pending (s : State) (a : Nat) (w : Word) : (hostWrite s a w).pending = s.pending := by
  obtain ⟨r, heq⟩ | ⟨-, heq⟩ | ⟨-, heq⟩ | heq := hostWrite_cases s a w <;> rw [heq]
  rfl

theorem exec_pending {i : Instr} {s t : State} (h : exec i s = .next t) : t.pending = s.pending := by
  obtain ⟨-, -, -, -, -, -, -, hpending, -⟩ := commandsKeepTheHostsRegisters i s t h
  exact hpending

/-- A write that the port takes is served and consumed, at `CMD` as elsewhere (R250). -/
theorem step_legal_write {s : State} {addr size : Nat} {w : Word} {rest : List HostAccess}
    (hp : s.pending = .write addr size w :: rest) (hlegal : accessLegal addr size = true) :
    ∃ t, step s = .next t ∧ t.pending = rest := by
  obtain ⟨rfl, halign, hspace⟩ := (accessLegal_iff addr size).mp hlegal
  by_cases hcmd : addr = 0x040
  · subst hcmd
    obtain ⟨i, -, hstep⟩ | hstep := step_write_cmd hp
    · have hx := exec_eq_finish i { s with pending := rest, port := .written }
      exact ⟨_, hstep.trans hx, exec_pending hx⟩
    · exact ⟨_, hstep, rfl⟩
  · exact ⟨_, step_write halign hspace hcmd hp, hostWrite_pending _ addr w⟩

/-- PROGRESS: a step serves and consumes any access that the port takes (R250, R287). -/
theorem step_legal {s : State} {a : HostAccess} {rest : List HostAccess} (hp : s.pending = a :: rest)
    (hlegal : a.legal = true) : ∃ t, step s = .next t ∧ t.pending = rest := by
  cases a with
  | write addr size w => exact step_legal_write hp hlegal
  | read addr size =>
    obtain ⟨rfl, halign, hspace⟩ := (accessLegal_iff addr size).mp hlegal
    exact ⟨_, step_read halign hspace hp, rfl⟩
  | hardwareReset => exact ⟨_, (step_eq_stepWith s).trans (stepWith_hardwareReset specNum hp), rfl⟩

/-- One step of a run that answers a next state. -/
theorem run_succ_of_step {M : Host.Core} {s t : M.State} (h : M.step s = .next t) (k : Nat) :
    M.run (k + 1) s = M.run k t := by
  simp only [Host.Core.run, h]

theorem run_legal {script : List HostAccess} (hlegal : scriptLegal script = true) {s : State}
    (hp : s.pending = script) : ∃ t, Sys2Proof.core.run script.length s = .next t ∧ t.pending = [] := by
  induction script generalizing s with
  | nil => exact ⟨s, rfl, hp⟩
  | cons a rest ih =>
    obtain ⟨ha, hrest⟩ := Bool.and_eq_true_iff.mp hlegal
    obtain ⟨t, hstep, ht⟩ := step_legal hp ha
    obtain ⟨u, hrun, hu⟩ := ih hrest ht
    exact ⟨u, (run_succ_of_step (M := Sys2Proof.core) hstep rest.length).trans hrun, hu⟩

/-- Settles O16, by `run_legal`: progress at each access, by induction on the script. -/
theorem legalScriptsAlwaysRunToTheirEnd : Obligations.LegalScriptsAlwaysRunToTheirEnd :=
  fun _ hlegal => run_legal hlegal rfl

/-! ### Register writes -/

/-- A setter reaches its own register's field and no other (R65, R74): by the record the read register stands in, and in
it by the fields its setter writes. -/
theorem read_write_of_ne (s : State) (w : Word) {r r' : Reg} (h : r' ≠ r) :
    Reg.read (Reg.write s w r) r' = Reg.read s r' := by
  cases r' with
  | cfgFsHz | cfgChannels | cfgMode | cfgBandwidth | cfgFrameSize | cfgBitrate | cfgRateMode | cfgComplexity | cfgFlags
  | cfgLossPct | cfgLsbDepth | cfgCnIntervalQ1 =>
    simp only [Reg.read, Reg.write, writeConfig]
    split <;> first | exact absurd rfl h | rfl | (split <;> rfl)
  | cmd | arg0 | arg1 | arg2 | status | res0 | res1 | errInfo | cmdSeq | irqEn | irqPend =>
    simp only [Reg.read, Reg.write, writeCommand]
    split <;> first | exact absurd rfl h | rfl
  | anaValid | anaProbQ15 | subencStatus | outCap | pktLen | smpCount | frmLen0 | frmLen1 | frmLen2 =>
    simp only [Reg.read, Reg.write, writeCollab]
    split <;> first | exact absurd rfl h | rfl
  | _ => rfl

/-- The views of the records stand at 0x100 and above and have no setter (R74). -/
theorem write_view (s : State) (w : Word) {r : Reg} (h : 0x100 ≤ r.addr) : Reg.write s w r = s := by
  cases r with
  | vadAna0 | vadAna1 | vadAna2 | vadHpState | vadCounter | vadNl | vadInvNl | vadNrgRatioSmthQ8 | vadNoiseBias
  | vadXnrgSubfr | vadQualityQ15 | vadSaQ8 | vadTiltQ15 | vadActive | dtxDurQ1 | dtxStat | dtxPeakLo | dtxPeakHi
  | dtxFrameDurQ1 | dtxCnElapsedQ1 | dtxEnergyLo | dtxEnergyHi | fecStat | fecPrevLen | fecFrameCount => rfl
  | _ => exact absurd h (by decide)

/-- Settles O20: the setters write the three host records alone, one field each (`read_write_of_ne`), and name no read-only
register (`write_view` for the views). -/
theorem registerWriteChangesOnlyThatRegister : Obligations.RegisterWriteChangesOnlyThatRegister := by
  intro s w r _
  rw [hostWrite_addr]
  refine ⟨fun r' h => read_write_of_ne s w h, rfl, rfl, rfl, rfl, rfl, rfl, rfl, fun _ => rfl, ?_⟩
  rintro (rfl | rfl | rfl | rfl | rfl | hview)
  case inr.inr.inr.inr.inr => exact write_view s w hview
  all_goals rfl

/-! ### Words of the byte buffers -/

theorem hostWrite_byteBuffer (s : State) {a : Nat} (w : Word) (h : 0x1000 ≤ a ∧ a < 0x2F00) :
    hostWrite s a w = { s with mem := Memory.storeBytes s.mem a (wordBytes w) } := by
  rw [hostWrite, target_byteBuffer h]

/-- What a byte reads as after a store of bytes: the stored byte inside, the old one outside (R73). -/
theorem byteAt_storeBytes (s : State) (a : Nat) (bs : List Byte) (b : Nat) :
    State.byteAt { s with mem := Memory.storeBytes s.mem a bs } b =
      if a ≤ b ∧ b < a + bs.length then bs.getD (b - a) 0 else s.byteAt b := by
  simp only [State.byteAt, byte?_storeBytes]
  split
  · next h =>
    have hlt : b - a < bs.length := by omega
    simp [List.getD, List.getElem?_eq_getElem hlt]
  · rfl

/-- Byte `k` of a word is bits `8k+7` to `8k` (R63). -/
theorem getD_wordBytes (w : Word) {k : Nat} (hk : k < 4) : (wordBytes w).getD k 0 = w.extractLsb' (8 * k) 8 := by
  match k, hk with
  | 0, _ | 1, _ | 2, _ | 3, _ => rfl

theorem append_wordBytes (w : Word) :
    w.extractLsb' 24 8 ++ w.extractLsb' 16 8 ++ w.extractLsb' 8 8 ++ w.extractLsb' 0 8 = w := by
  rw [BitVec.extractLsb'_append_extractLsb'_eq_extractLsb' (by decide),
    BitVec.extractLsb'_append_extractLsb'_eq_extractLsb' (by decide),
    BitVec.extractLsb'_append_extractLsb'_eq_extractLsb' (by decide)]
  exact BitVec.extractLsb'_eq_self

theorem byteAt_hostWrite_byteBuffer (s : State) {a k : Nat} (w : Word) (h : 0x1000 ≤ a ∧ a < 0x2F00) (hk : k < 4) :
    (hostWrite s a w).byteAt (a + k) = w.extractLsb' (8 * k) 8 := by
  have hlen : (wordBytes w).length = 4 := rfl
  rw [hostWrite_byteBuffer s w h, byteAt_storeBytes, if_pos (by omega), Nat.add_sub_cancel_left, getD_wordBytes w hk]

/-- Settles O22: the store of `wordBytes`, read byte by byte (`byteAt_hostWrite_byteBuffer`) and put together again
(`append_wordBytes`). -/
theorem byteBufferWordsAreLittleEndian : Obligations.ByteBufferWordsAreLittleEndian := by
  intro s a w _ hbuffer
  have h : 0x1000 ≤ a ∧ a < 0x2F00 := by omega
  have hbyte {k : Nat} (hk : k < 4) := byteAt_hostWrite_byteBuffer s w h hk
  have hstore := hostWrite_byteBuffer s w h
  have hlen : (wordBytes w).length = 4 := rfl
  refine ⟨fun k hk => hbyte hk, fun b hb => ?_, ?_, by rw [hstore]⟩
  · rw [hstore, byteAt_storeBytes, if_neg (by omega)]
  · rw [hostRead_byteBuffer h, hbyte (k := 3) (by decide), hbyte (k := 2) (by decide), hbyte (k := 1) (by decide),
      show (hostWrite s a w).byteAt a = _ from hbyte (k := 0) (by decide)]
    exact append_wordBytes w

/-! ### Sample words -/

theorem hostWrite_smp (s : State) {a : Nat} (w : Word) (h : 0x8000 ≤ a ∧ a < 0xDA00) :
    hostWrite s a w = { s with mem := Memory.storeSamples s.mem a [w.extractLsb' 0 24] } := by
  rw [hostWrite, target_smp h]

theorem append_sampleBytes (v : BitVec 24) : v.extractLsb' 16 8 ++ v.extractLsb' 8 8 ++ v.extractLsb' 0 8 = v := by
  rw [BitVec.extractLsb'_append_extractLsb'_eq_extractLsb' (by decide),
    BitVec.extractLsb'_append_extractLsb'_eq_extractLsb' (by decide)]
  exact BitVec.extractLsb'_eq_self

/-- A stored sample reads back (R64). -/
theorem sampleAt_storeSamples (s : State) (a : Nat) (v : BitVec 24) :
    State.sampleAt { s with mem := Memory.storeSamples s.mem a [v] } a = v := by
  have hbyte {j : Nat} (hj : j < 3) :
      State.byteAt { s with mem := Memory.storeSamples s.mem a [v] } (a + j) = v.extractLsb' (8 * j) 8 := by
    have hin := byte?_storeSamples_inside s.mem a [v] 0 j Nat.one_pos hj
    rw [Nat.mul_zero, Nat.add_zero] at hin
    rw [State.byteAt, hin]
    rfl
  rw [State.sampleAt, hbyte (j := 2) (by decide), hbyte (j := 1) (by decide),
    show State.byteAt _ a = _ from hbyte (j := 0) (by decide)]
  exact append_sampleBytes v

/-- Settles O23: the store of one sample, read back by `sampleAt_storeSamples`. -/
theorem sampleWordsHoldTwentyFourBits : Obligations.SampleWordsHoldTwentyFourBits := by
  intro s i w hi
  have h : 0x8000 ≤ 0x8000 + 4 * i ∧ 0x8000 + 4 * i < 0xDA00 := by omega
  have hstore := hostWrite_smp s w h
  have hsample : (hostWrite s (0x8000 + 4 * i) w).sampleAt (0x8000 + 4 * i) = w.extractLsb' 0 24 := by
    rw [hstore, sampleAt_storeSamples]
  refine ⟨hsample, by rw [hostRead_sample (.inl h), hsample], fun b hb => ?_, by rw [hstore]⟩
  rw [hstore]
  exact byteAt_congr (byte?_storeSamples_outside s.mem _ _ b hb) rfl

/-! ### Addresses that ignore writes -/

/-- The reserved ranges among and after the registers (R61). -/
abbrev RegisterGap (a : Nat) : Prop :=
  (0x30 ≤ a ∧ a < 0x40) ∨ (0x6C ≤ a ∧ a < 0x80) ∨ (0x98 ≤ a ∧ a < 0xA0) ∨ (0xAC ≤ a ∧ a < 0x100) ∨
    (0x18C ≤ a ∧ a < 0x1A0) ∨ (0x1CC ≤ a ∧ a < 0x1000)

/-- The reserved ranges between and after the buffers (R61). -/
abbrev BufferGap (a : Nat) : Prop :=
  (0x2F00 ≤ a ∧ a < 0x8000) ∨ (0xDA00 ≤ a ∧ a < 0x10000) ∨ (0x15A00 ≤ a ∧ a < 0x20000)

theorem target_registerGap {a : Nat} (h : RegisterGap a) : target a = .reserved := by
  have hall : ∀ r ∈ Reg.all, ¬ RegisterGap r.addr := by decide
  have hnone : regAt a = none := List.find?_eq_none.mpr fun r hr heq => hall r hr (of_decide_eq_true heq ▸ h)
  have hlow : a < 0x1000 := by omega
  have hbuffers : target a = if 0x1000 ≤ a ∧ a < 0x2000 then .bytes else if 0x2000 ≤ a ∧ a < 0x2F00 then .bytes
      else if 0x8000 ≤ a ∧ a < 0xDA00 then .sample else if 0x10000 ≤ a ∧ a < 0x15A00 then .retained else .reserved := by
    rw [target, hnone]
    rfl
  rw [hbuffers, if_neg (by omega), if_neg (by omega), if_neg (by omega), if_neg (by omega)]

theorem target_bufferGap {a : Nat} (h : BufferGap a) : target a = .reserved := by
  rw [target_of_le (by omega), if_neg (by omega), if_neg (by omega), if_neg (by omega), if_neg (by omega)]

theorem reserved_ignores {a : Nat} (h : target a = .reserved) (s : State) (w : Word) :
    hostRead s a = 0 ∧ hostWrite s a w = s := by
  simp only [hostRead, hostWrite, h, and_self]

theorem hostWrite_fecbuf (s : State) {a : Nat} (w : Word) (h : 0x10000 ≤ a ∧ a < 0x15A00) : hostWrite s a w = s := by
  rw [hostWrite, target_fecbuf h]

/-- Settles O24: the nine ranges are those of `target_registerGap` and `target_bufferGap`. -/
theorem reservedAndRetainedAddressesIgnoreWrites : Obligations.ReservedAndRetainedAddressesIgnoreWrites := by
  refine fun s a w _ => ⟨fun hrange => reserved_ignores ?_ s w, hostWrite_fecbuf s w⟩
  obtain hgap | hgap : RegisterGap a ∨ BufferGap a := by simpa only [or_assoc] using hrange
  · exact target_registerGap hgap
  · exact target_bufferGap hgap

/-! ### What the commands write of the buffers -/

/-- A packet that fits `PKT` changes no byte outside it (R72). -/
theorem byteAt_storePacket_outside (s : State) {q : List Byte} (len : Nat) {a : Nat} (hq : q.length ≤ pktCap)
    (h : a < 0x1000 ∨ 0x2000 ≤ a) : (s.storePacket q len).byteAt a = s.byteAt a := by
  rw [pktCap_eq] at hq
  rw [byteAt_storePacket, if_neg (by rw [pktBase]; omega)]

/-- `FEC.RECORD` of a frame that fits `FECBUF` changes no byte outside it, with FEC enabled or not (R182). -/
theorem byteAt_recordFrame_outside (s : State) {len : Word} (wasActive : Bool) {a : Nat} (hlen : len.toNat ≤ smpCap)
    (h : a < 0x10000 ∨ 0x15A00 ≤ a) : (recordFrame s len wasActive).byteAt a = s.byteAt a := by
  rw [smpCap_eq] at hlen
  unfold recordFrame
  split
  · exact byteAt_retainFrame_outside s len.toNat a (by rw [fecBase]; omega)
  · rfl

/-- What an effect leaves of `PKT_LEN` and the buffers, the bound on `OUT_CAP` keeping a packet inside `PKT` (R44, R72). -/
theorem CommandEffect.buffers {P : NumCfg} {i : Instr} {s u : State} (hcol : CollabOk s.col) (h : CommandEffect P s i u) :
    (∀ a, (a < 0x1000 ∨ 0x2000 ≤ a) → (a < 0x10000 ∨ 0x15A00 ≤ a) → u.byteAt a = s.byteAt a) ∧
    (i ≠ .pktPad → i ≠ .brcConform → i ≠ .pktBuild → i ≠ .pktCn →
      u.col.pktLen = s.col.pktLen ∧ ∀ a, (a < 0x10000 ∨ 0x15A00 ≤ a) → u.byteAt a = s.byteAt a) ∧
    ((∀ b, i ≠ .fecRecord b) → ∀ a, (a < 0x1000 ∨ 0x2000 ≤ a) → u.byteAt a = s.byteAt a) := by
  cases h with
  | keeps | reset | vadInit | vadEval | dtxDecide =>
    exact ⟨fun _ _ _ => rfl, fun _ _ _ _ => ⟨rfl, fun _ _ => rfl⟩, fun _ _ _ => rfl⟩
  | @fecRecord wasActive hpos hcap =>
    have hkeep (a : Nat) := byteAt_recordFrame_outside s wasActive (a := a) hcap
    have hlen : (recordFrame s s.io.arg0 wasActive).col.pktLen = s.col.pktLen := by rw [recordFrame_eq]
    exact ⟨fun a _ => hkeep a, fun _ _ _ _ => ⟨hlen, hkeep⟩, fun hne => absurd rfl (hne wasActive)⟩
  | @packet _ q len hi hlen hcap =>
    have hkeep (a : Nat) := byteAt_storePacket_outside s len (a := a) ((hlen.trans_le hcap).trans hcol.outCap)
    refine ⟨fun a ha _ => hkeep a ha, fun hpad hconform hbuild hcn => ?_, fun _ => hkeep⟩
    simp [packetCommands, hpad, hconform, hbuild, hcn] at hi

/-- Settles O12, by `CommandEffect.buffers`: the completions write no byte and not `PKT_LEN`. -/
theorem buffersAreWrittenByTheirCommands : Obligations.BuffersAreWrittenByTheirCommands := by
  intro i s t hcol h
  obtain ⟨u, r0, r1, hu, rfl⟩ | ⟨e, rfl⟩ := exec_effect h
  · have hbuffers := hu.buffers hcol
    exact hbuffers
  · exact ⟨fun _ _ _ => rfl, fun _ _ _ _ => ⟨rfl, fun _ _ => rfl⟩, fun _ _ _ => rfl⟩

end Sys2Proof.Machine
end

section
/-! PROOFS. Family 30_encoding.md, the command words (R80 to R83): the decoder inverts the encoder, the words that decode
are the legal ones, and a word that is none completes with `IllegalCommand` (R258). -/

namespace Sys2Proof.Machine

open Sys2Proof.Config

/-! ### Decoding the word of a command -/

theorem decode_encode (i : Instr) : decode (encode i) = .ok i := by
  cases i with
  | fecRecord wasActive => cases wasActive <;> rfl
  | _ => rfl

/-- Settles O4: one direction is `decode_encode`, the other `encode_of_decode`. -/
theorem decodeAndEncodeAgree : Obligations.DecodeAndEncodeAgree := fun _ i =>
  ⟨fun h => (encode_of_decode h).symm, fun h => h ▸ decode_encode i⟩

/-- A word decodes when it is the word of a command. -/
theorem exists_decode_iff (w : Word) : (∃ i, decode w = .ok i) ↔ ∃ i, w = encode i :=
  exists_congr fun i => decodeAndEncodeAgree w i

/-- Settles O5: the nine legal words are encodings, the other three fail one check each. -/
theorem writtenOutWordsDecode : Obligations.WrittenOutWordsDecode :=
  ⟨decode_encode .nop, decode_encode .reset, decode_encode .vadEval, decode_encode .dtxDecide,
    decode_encode (.fecRecord false), decode_encode (.fecRecord true), decode_encode .brcConform, decode_encode .pktPad,
    decode_encode .pktBuild, by decide, by decide, by decide⟩

/-! ### The legality check -/

theorem wellFormed_encode (i : Instr) : (commandFields (encode i)).wellFormed = true := by
  cases i with
  | nop => exact Laws.EncodedLegal.nop
  | reset => exact Laws.EncodedLegal.reset
  | vadInit => exact Laws.EncodedLegal.vadInit
  | vadEval => exact Laws.EncodedLegal.vadEval
  | dtxDecide => exact Laws.EncodedLegal.dtxDecide
  | fecQuery => exact Laws.EncodedLegal.fecQuery
  | fecRecord wasActive => exact Laws.EncodedLegal.fecRecord wasActive
  | fecRate => exact Laws.EncodedLegal.fecRate
  | brcTarget => exact Laws.EncodedLegal.brcTarget
  | brcConform => exact Laws.EncodedLegal.brcConform
  | pktPad => exact Laws.EncodedLegal.pktPad
  | pktCheck => exact Laws.EncodedLegal.pktCheck
  | pktToc => exact Laws.EncodedLegal.pktToc
  | pktBuild => exact Laws.EncodedLegal.pktBuild
  | pktCn => exact Laws.EncodedLegal.pktCn

theorem wellFormed_of_decode {w : Word} {i : Instr} (h : decode w = .ok i) : (commandFields w).wellFormed = true :=
  encode_of_decode h ▸ wellFormed_encode i

/-- Every operation code of the table but that of `FEC.RECORD` stands for a command without flags (R81). -/
theorem isSome_opcodeCommand : ∀ opc ∈ opcodes, opc ≠ 0x31 → (opcodeCommand opc).isSome = true := by decide

theorem decodeFields_of_wellFormed {c : CommandWord} (h : c.wellFormed = true) : ∃ i, decodeFields c = .ok i := by
  simp only [CommandWord.wellFormed, CommandWord.zeroOk, CommandWord.opcOk, CommandWord.flgOk, Bool.and_eq_true,
    beq_iff_eq, List.contains_iff_mem] at h
  obtain ⟨⟨hzero, hopc⟩, hflg⟩ := h
  by_cases hrec : c.opc = 0x31
  · simp only [hrec, if_true, Bool.or_eq_true, beq_iff_eq] at hflg
    obtain hflg | hflg := hflg
    · exact ⟨.fecRecord false, by simp [decodeFields, hzero, hrec, hflg]⟩
    · exact ⟨.fecRecord true, by simp [decodeFields, hzero, hrec, hflg]⟩
  · rw [if_neg hrec, beq_iff_eq] at hflg
    obtain ⟨i, hi⟩ := Option.isSome_iff_exists.mp (isSome_opcodeCommand c.opc hopc hrec)
    exact ⟨i, by rw [decodeFields, if_neg (not_not.mpr hzero), if_neg hrec, hi]; exact if_pos hflg⟩

theorem exists_decode_iff_wellFormed (w : Word) : (∃ i, decode w = .ok i) ↔ (commandFields w).wellFormed = true :=
  ⟨fun ⟨_, h⟩ => wellFormed_of_decode h, decodeFields_of_wellFormed⟩

/-! ### The legal words by match and mask -/

/-- The words of the commands that have no flag (R83). -/
def exactWords : List Word :=
  [0x00, 0x01, 0x02, 0x10, 0x20, 0x30, 0x32, 0x40, 0x41, 0x42, 0x50, 0x51, 0x52, 0x53]

theorem exists_encode_of_mem_exactWords {w : Word} (h : w ∈ exactWords) : ∃ i, w = encode i := by
  have hall : exactWords = [Instr.nop, .reset, .vadInit, .vadEval, .dtxDecide, .fecQuery, .fecRate, .brcTarget,
    .brcConform, .pktPad, .pktCheck, .pktToc, .pktBuild, .pktCn].map encode := by decide
  obtain ⟨i, -, rfl⟩ := List.mem_map.mp (hall ▸ h)
  exact ⟨i, rfl⟩

/-- The mask leaves bit 8 free, which is the flag of `FEC.RECORD` (R82, R83). -/
theorem eq_encode_fecRecord_of_mask {w : Word} (h : w &&& 0xFFFFFEFF = 0x31) : w = encode (.fecRecord (w.getLsbD 8)) := by
  have hsplit : w = (w &&& 0xFFFFFEFF) ||| flagBit (w.getLsbD 8) 8 := by
    rw [flagBit_getLsbD, ← BitVec.and_or_distrib_left]
    exact (BitVec.and_allOnes).symm
  have hflag : ∀ b, (0x31 : Word) ||| flagBit b 8 = encode (.fecRecord b) := by decide
  rw [h, hflag] at hsplit
  exact hsplit

theorem encode_matches (i : Instr) : encode i ∈ exactWords ∨ encode i &&& 0xFFFFFEFF = 0x31 := by
  cases i with
  | fecRecord wasActive => exact .inr (by cases wasActive <;> decide)
  | _ => exact .inl (by decide)

/-- Settles O3: the legality check is `exists_decode_iff_wellFormed`; for match and mask, the words that decode are the
words of the commands. -/
theorem decoderAcceptsExactlyTheLegalWords : Obligations.DecoderAcceptsExactlyTheLegalWords := by
  refine fun w => ⟨exists_decode_iff_wellFormed w, (exists_decode_iff w).trans ⟨?_, ?_⟩⟩
  · rintro ⟨i, rfl⟩
    exact encode_matches i
  · rintro (hexact | hmask)
    · exact exists_encode_of_mem_exactWords hexact
    · exact ⟨_, eq_encode_fecRecord_of_mask hmask⟩

/-! ### A word that is no command -/

/-- Settles O2: a write of `CMD` runs a command or is an illegal command (`step_write_cmd`), and only legal words decode. -/
theorem illegalWordCompletesWithIllegalCommand : Obligations.IllegalWordCompletesWithIllegalCommand := by
  intro s w rest hp hbad
  obtain ⟨i, hd, -⟩ | hstep := step_write_cmd hp
  · rw [wellFormed_of_decode hd] at hbad
    cases hbad
  · exact hstep

end Sys2Proof.Machine
end

section
/-! PROOFS. Family 30_encoding.md, the length fields of a packet: the frame length (R89, R90), a run of them (R97), and the
padding length with its data (R92, R93). -/

namespace Sys2Proof.Machine

open Sys2Proof.Config

/-! ### Frame lengths -/

theorem toNat_byte {n : Nat} (h : n < 256) : (BitVec.ofNat 8 n).toNat = n :=
  (BitVec.toNat_ofNat n 8).trans (Nat.mod_eq_of_lt h)

theorem encLen_short {len : Nat} (h : len ≤ 251) : encLen len = [BitVec.ofNat 8 len] := if_pos h

theorem encLen_long {len : Nat} (h : 252 ≤ len) (h' : len ≤ 1275) :
    ∃ b0 b1 : Byte, encLen len = [b0, b1] ∧ b0.toNat = 252 + len % 4 ∧ 4 * b1.toNat + b0.toNat = len := by
  refine ⟨_, _, if_neg (by omega), ?_, ?_⟩
  · rw [BitVec.toNat_ofNat]
    omega
  · rw [BitVec.toNat_ofNat, BitVec.toNat_ofNat]
    omega

theorem decLen_short {b0 : Byte} (h : b0.toNat ≤ 251) (rest : List Byte) : decLen (b0 :: rest) = some (b0.toNat, 1) :=
  if_pos h

theorem decLen_long {b0 : Byte} (h : 251 < b0.toNat) (b1 : Byte) (rest : List Byte) :
    decLen (b0 :: b1 :: rest) = some (4 * b1.toNat + b0.toNat, 2) := if_neg (by omega)

theorem decLen_cut {b0 : Byte} (h : 251 < b0.toNat) : decLen [b0] = none := if_neg (by omega)

theorem decLen_encLen_append {len : Nat} (h : len ≤ 1275) (rest : List Byte) :
    decLen (encLen len ++ rest) = some (len, encLenSize len) := by
  unfold encLenSize
  split_ifs with hshort
  · have hbyte : (BitVec.ofNat 8 len).toNat = len := toNat_byte (by omega)
    rw [encLen_short hshort, List.singleton_append, decLen_short (by omega), hbyte]
  · obtain ⟨b0, b1, henc, hb0, hlen⟩ := encLen_long (by omega) h
    rw [henc, List.cons_append, List.singleton_append, decLen_long (by omega), hlen]

/-- A field holds at most `4 * 255 + 255`, the largest frame (R95). -/
theorem le_of_decLen {bs : List Byte} {len u : Nat} (h : decLen bs = some (len, u)) : len ≤ 1275 := by
  obtain _ | ⟨b0, rest⟩ := bs
  · cases h
  · obtain hlong | hshort := Nat.lt_or_ge 251 b0.toNat
    · obtain _ | ⟨b1, rest⟩ := rest
      · rw [decLen_cut hlong] at h
        cases h
      · rw [decLen_long hlong] at h
        cases h
        omega
    · rw [decLen_short hshort] at h
      cases h
      omega

/-- Settles O42, by the equations of `encLen` and `decLen` and `decLen_encLen_append`. -/
theorem lengthFieldRoundTrip : Obligations.LengthFieldRoundTrip := by
  refine ⟨fun len rest h => ⟨?_, length_encLen len⟩, fun len => ⟨encLen_short, encLen_long⟩, rfl,
    fun b0 rest h => decLen_short h rest, fun b0 h => decLen_cut h, fun b0 b1 rest h => decLen_long h b1 rest⟩
  rw [length_encLen, decLen_encLen_append h]

/-! ### Frame lengths in a row -/

theorem readLens_succ_eq_none {k : Nat} {bs : List Byte} (h : decLen bs = none) : readLens (k + 1) bs = none := by
  rw [readLens, h]

theorem readLens_succ {k : Nat} {bs : List Byte} {len u : Nat} (h : decLen bs = some (len, u)) :
    readLens (k + 1) bs = (readLens k (bs.drop u)).map fun r => (len :: r.1, u + r.2) := by
  simp only [readLens, h]
  cases readLens k (bs.drop u) <;> rfl

theorem le_of_mem_readLens {k : Nat} {bs : List Byte} {lens : List Nat} {used : Nat}
    (h : readLens k bs = some (lens, used)) : ∀ len ∈ lens, len ≤ 1275 := by
  induction k generalizing bs lens used with
  | zero =>
    cases h
    exact fun _ hmem => absurd hmem List.not_mem_nil
  | succ k ih =>
    cases hl : decLen bs with
    | none =>
      rw [readLens_succ_eq_none hl] at h
      cases h
    | some first =>
      obtain ⟨⟨lens', used'⟩, hrest, heq⟩ := Option.map_eq_some_iff.mp (readLens_succ hl ▸ h)
      cases heq
      exact List.forall_mem_cons.mpr ⟨le_of_decLen hl, ih hrest⟩

/-- Stored lengths are read back, whatever follows them. -/
theorem readLens_flatMap_encLen {lens : List Nat} (h : ∀ len ∈ lens, len ≤ 1275) (rest : List Byte) :
    readLens lens.length (lens.flatMap encLen ++ rest) = some (lens, (lens.map encLenSize).sum) := by
  induction lens with
  | nil => rfl
  | cons len lens ih =>
    obtain ⟨hlen, hlens⟩ := List.forall_mem_cons.mp h
    rw [List.flatMap_cons, List.append_assoc, List.length_cons, readLens_succ (decLen_encLen_append hlen _),
      List.drop_left' (length_encLen len), ih hlens, Option.map_some, List.map_cons, List.sum_cons]

/-! ### The padding length and the padding data -/

theorem readPadLen_last {b : Byte} (h : b.toNat ≠ 255) (rest : List Byte) : readPadLen (b :: rest) = some (b.toNat, 1) :=
  if_neg h

theorem readPadLen_escape {b : Byte} (h : b.toNat = 255) (rest : List Byte) :
    readPadLen (b :: rest) = (readPadLen rest).map fun r => (254 + r.1, r.2 + 1) := by
  rw [readPadLen, if_pos h]
  cases readPadLen rest <;> rfl

theorem readPadLen_escapes {b : Byte} (h : b.toNat ≠ 255) (k : Nat) (rest : List Byte) :
    readPadLen (List.replicate k 255 ++ b :: rest) = some (254 * k + b.toNat, k + 1) := by
  induction k with
  | zero => simpa using readPadLen_last h rest
  | succ k ih =>
    rw [List.replicate_succ, List.cons_append, readPadLen_escape rfl, ih, Option.map_some]
    congr 2
    omega

theorem padFinal_le (t : Nat) : padFinal t ≤ 254 := by
  unfold padFinal padEscapes
  omega

theorem padField_of_pos {t : Nat} (h : 1 ≤ t) :
    padField t = List.replicate (padEscapes t) 255 ++ [BitVec.ofNat 8 (padFinal t)] := if_neg (by omega)

theorem length_padField {t : Nat} (h : 1 ≤ t) : (padField t).length = padEscapes t + 1 := by
  rw [padField_of_pos h, List.length_append, List.length_replicate, List.length_singleton]

/-- The data bytes in terms of the field's bytes (R92): `T = (k + 1) + 254 k + f`. -/
theorem padData_of_pos {t : Nat} (h : 1 ≤ t) : padData t = List.replicate (254 * padEscapes t + padFinal t) 0 := by
  have hsize : t - (padEscapes t + 1) = 254 * padEscapes t + padFinal t := by
    unfold padFinal padEscapes
    omega
  rw [padData, if_neg (by omega), hsize]

/-- The padding length that the field holds is that of the padding data, whatever follows the field. -/
theorem readPadLen_padField_append {t : Nat} (h : 1 ≤ t) (rest : List Byte) :
    readPadLen (padField t ++ rest) = some ((padData t).length, (padField t).length) := by
  have hfinal := padFinal_le t
  have hbyte : (BitVec.ofNat 8 (padFinal t)).toNat = padFinal t := toNat_byte (by omega)
  rw [length_padField h, padData_of_pos h, padField_of_pos h, List.append_assoc, List.singleton_append,
    readPadLen_escapes (by omega), hbyte, List.length_replicate]

/-- Settles O43: the field is read back by `readPadLen_padField_append`, and field and data together are the overhead by
`length_padField_add_padData`. -/
theorem paddingFieldReachesTheOverhead : Obligations.PaddingFieldReachesTheOverhead := by
  refine ⟨fun t rest h => ⟨_, _, readPadLen_padField_append h rest, rfl, rfl, length_padField_add_padData t,
      length_padField h⟩, ?_, rfl, rfl, rfl, fun b rest h => readPadLen_last h rest, fun b rest h => ?_⟩
  · rintro t _ _ h rfl rfl
    exact ⟨padField_of_pos h, padFinal_le t, padData_of_pos h⟩
  · rw [readPadLen_escape h]
    exact ⟨fun hnone => by rw [hnone]; rfl, fun p u hsome => by rw [hsome]; rfl⟩

end Sys2Proof.Machine
end

section
/-! PROOFS. Family 30_encoding.md with 44_bitrate.md: what parses and to what, frame code by frame code (R91, R94, R197),
where the frames lie, and the bytes of a re-framed packet (R198 to R200). -/

namespace Sys2Proof.Machine

open Sys2Proof.Config

/-! ### The check on the frame lengths -/

theorem checked_eq (r : Parsed) : r.checked = if ∀ len ∈ r.lens, len ≤ 1275 then some r else none :=
  if_congr (List.all_eq_true.trans (forall₂_congr fun _ _ => decide_eq_true_iff)) rfl rfl

/-- A guarded parse and the check on the lengths are one guard; `d` is what the check adds (R197). -/
theorem bind_checked {o : Option Parsed} {r : Parsed} {c d : Prop} [Decidable c] [Decidable d]
    (ho : o = if c then some r else none) (hd : (∀ len ∈ r.lens, len ≤ 1275) ↔ d) :
    o.bind Parsed.checked = if c ∧ d then some r else none := by
  by_cases hc : c
  · simp [ho, hc, checked_eq, hd]
  · simp [ho, hc]

/-! ### Frame codes 0, 1 and 2 -/

section Codes
variable {toc : Byte} {rest : List Byte}

theorem parsePacket_code0 (h : (toc.extractLsb' 0 2).toNat = 0) :
    parsePacket (toc :: rest) = if rest.length ≤ 1275 then some ⟨toc, [rest.length], 1⟩ else none := by
  simp [parsePacket, h, checked_eq]

theorem parsePacket_code1 (h : (toc.extractLsb' 0 2).toNat = 1) :
    parsePacket (toc :: rest) = if rest.length % 2 = 0 ∧ rest.length / 2 ≤ 1275 then
      some ⟨toc, [rest.length / 2, rest.length / 2], 1⟩ else none := by
  have hparse : parsePacket (toc :: rest) = (parseCode1 toc (rest.length + 1)).bind Parsed.checked := by
    simp [parsePacket, h]
  rw [hparse]
  exact bind_checked (ite_not _ _ _) (by simp)

theorem parsePacket_code2 (h : (toc.extractLsb' 0 2).toNat = 2) :
    parsePacket (toc :: rest) = (parseCode2 toc (toc :: rest)).bind Parsed.checked := by
  simp [parsePacket, h]

theorem parsePacket_code2_cut (h : (toc.extractLsb' 0 2).toNat = 2) (hl : decLen rest = none) :
    parsePacket (toc :: rest) = none := by
  simp [parsePacket_code2 h, parseCode2, hl]

theorem parsePacket_code2_length (h : (toc.extractLsb' 0 2).toNat = 2) {l0 u : Nat} (hl : decLen rest = some (l0, u)) :
    parsePacket (toc :: rest) = if 1 + u + l0 ≤ rest.length + 1 ∧ rest.length - u - l0 ≤ 1275 then
      some ⟨toc, [l0, rest.length - u - l0], 1 + u⟩ else none := by
  have hparse : parseCode2 toc (toc :: rest) =
      if 1 + u + l0 ≤ rest.length + 1 then some ⟨toc, [l0, rest.length - u - l0], 1 + u⟩ else none := by
    simp only [parseCode2, List.drop_one, List.tail_cons, hl, List.length_cons, Nat.add_sub_cancel, gt_iff_lt, ← not_le,
      ite_not]
  rw [parsePacket_code2 h]
  exact bind_checked hparse (by simp [le_of_decLen hl])

/-! ### Frame code 3: the count byte and the padding -/

theorem parsePacket_code3 (h : (toc.extractLsb' 0 2).toNat = 3) :
    parsePacket (toc :: rest) = (parseCode3 toc (toc :: rest)).bind Parsed.checked := by
  simp [parsePacket, h]

variable {cb : Byte} {body : List Byte}

theorem parseCode3_count_zero (h : (cb.extractLsb' 0 6).toNat = 0) : parseCode3 toc (toc :: cb :: body) = none := if_pos h

theorem parseCode3_padding_cut (h6 : cb.getLsbD 6 = true) (hpad : readPadLen body = none) :
    parseCode3 toc (toc :: cb :: body) = none := by
  simp [parseCode3, h6, hpad]

/-- The count byte `cb` and the bytes after it say that there are `pad` bytes of padding data, and that what follows
starts at index `i` of the packet (R91, R92). -/
def PaddingRead (cb : Byte) (body : List Byte) (pad i : Nat) : Prop :=
  (cb.getLsbD 6 = false ∧ pad = 0 ∧ i = 2) ∨ (cb.getLsbD 6 = true ∧ ∃ u, readPadLen body = some (pad, u) ∧ i = 2 + u)

theorem parseCode3_of_paddingRead {pad i : Nat} (hm : (cb.extractLsb' 0 6).toNat ≠ 0) (h : PaddingRead cb body pad i) :
    parseCode3 toc (toc :: cb :: body) = if (toc :: cb :: body).length < pad then none else
      parseCode3Frames toc (toc :: cb :: body) (cb.getLsbD 7) (cb.extractLsb' 0 6).toNat i
        ((toc :: cb :: body).length - pad) := by
  obtain ⟨h6, rfl, rfl⟩ | ⟨h6, u, hpad, rfl⟩ := h
  · simp only [parseCode3, if_neg hm, h6, Bool.false_eq_true, if_false, Nat.not_lt_zero, Nat.sub_zero]
  · simp only [parseCode3, if_neg hm, h6, if_true, List.drop_succ_cons, List.drop_zero, hpad]

/-- Padding that reaches below the current index is malformed (R197). -/
theorem parseCode3_padding_too_long {pad i : Nat} (hm : (cb.extractLsb' 0 6).toNat ≠ 0) (h : PaddingRead cb body pad i)
    (hlong : (toc :: cb :: body).length < pad + i) : parseCode3 toc (toc :: cb :: body) = none := by
  rw [parseCode3_of_paddingRead hm h]
  split_ifs with hpad
  · rfl
  · exact if_pos (by omega)

theorem parseCode3_frames {pad i stop : Nat} (hm : (cb.extractLsb' 0 6).toNat ≠ 0) (h : PaddingRead cb body pad i)
    (hstop : stop + pad = (toc :: cb :: body).length) :
    parseCode3 toc (toc :: cb :: body) =
      parseCode3Frames toc (toc :: cb :: body) (cb.getLsbD 7) (cb.extractLsb' 0 6).toNat i stop := by
  rw [parseCode3_of_paddingRead hm h, if_neg (by omega), ← hstop, Nat.add_sub_cancel]

end Codes

/-! ### Frame code 3: the frames -/

section Frames
variable {toc : Byte} {p : List Byte} {m i stop : Nat}

theorem parseCode3Frames_equal (hi : i ≤ stop) :
    parseCode3Frames toc p false m i stop =
      if (stop - i) % m = 0 then some ⟨toc, List.replicate m ((stop - i) / m), i⟩ else none := by
  simp [parseCode3Frames, Nat.not_lt.mpr hi]

theorem checked_equal (hm : m ≠ 0) (len : Nat) : (∀ l ∈ List.replicate m len, l ≤ 1275) ↔ len ≤ 1275 := by
  simp [List.mem_replicate, hm]

theorem parseCode3Frames_stored_cut (hl : readLens (m - 1) ((p.take stop).drop i) = none) :
    parseCode3Frames toc p true m i stop = none := by
  simp [parseCode3Frames, hl]

theorem parseCode3Frames_stored (hi : i ≤ stop) {lens : List Nat} {used : Nat}
    (hl : readLens (m - 1) ((p.take stop).drop i) = some (lens, used)) :
    parseCode3Frames toc p true m i stop = if i + used + lens.sum ≤ stop then
      some ⟨toc, lens ++ [stop - (i + used + lens.sum)], i + used⟩ else none := by
  rw [parseCode3Frames, if_neg (Nat.not_lt.mpr hi), if_pos rfl, hl]
  simp only [Nat.sub_sub, ← not_le, ite_not]

theorem checked_stored {k : Nat} {bs : List Byte} {lens : List Nat} {used : Nat}
    (hl : readLens k bs = some (lens, used)) (last : Nat) : (∀ l ∈ lens ++ [last], l ≤ 1275) ↔ last ≤ 1275 := by
  rw [List.forall_mem_append, List.forall_mem_singleton]
  exact and_iff_right (le_of_mem_readLens hl)

end Frames

/-! ### Where the frames lie -/

theorem length_framesAt (p : List Byte) (off : Nat) (lens : List Nat) : (framesAt p off lens).length = lens.length := by
  induction lens generalizing off with
  | nil => rfl
  | cons len lens ih => rw [framesAt, List.length_cons, ih, List.length_cons]

theorem getD_framesAt {p : List Byte} {off j : Nat} {lens : List Nat} (hj : j < lens.length) :
    (framesAt p off lens).getD j [] = (p.drop (off + (lens.take j).sum)).take (lens.getD j 0) := by
  induction lens generalizing off j with
  | nil => cases hj
  | cons len lens ih =>
    cases j with
    | zero => rfl
    | succ j =>
      rw [List.length_cons] at hj
      rw [framesAt, List.getD_cons_succ, ih (by omega), List.take_succ_cons, List.sum_cons, List.getD_cons_succ,
        Nat.add_assoc]

/-! ### The bytes of a re-framed packet -/

theorem needsLens_eq_false {lens : List Nat} : needsLens lens = false ↔ ∀ l ∈ lens, l = lens.headD 0 := by
  simp [needsLens]

/-- `v'` as the number in the count byte (R198). -/
theorem toNat_needsLens (lens : List Nat) :
    (needsLens lens).toNat = if ∀ l ∈ lens, l = lens.headD 0 then 0 else 1 := by
  split_ifs with h
  · rw [needsLens_eq_false.mpr h]
    rfl
  · rw [Bool.eq_true_of_not_eq_false (mt needsLens_eq_false.mp h)]
    rfl

theorem baseSize_eq (lens : List Nat) :
    baseSize lens = 2 + lens.sum + if (needsLens lens).toNat = 1 then
      (lens.dropLast.map fun l => if l ≤ 251 then 1 else 2).sum else 0 := by
  simp only [Bool.toNat_eq_one]
  rfl

/-- Setting the frame code to 3 keeps the other bits (R200). -/
theorem or_three_eq (toc : Byte) : toc ||| 3 = (toc &&& 0xFC) ||| 3 := by
  have hmask : ∀ k < 8, (0xFC : Byte).getLsbD k = !(3 : Byte).getLsbD k := by decide
  refine BitVec.eq_of_getLsbD_eq fun k hk => ?_
  rw [BitVec.getLsbD_or, BitVec.getLsbD_or, BitVec.getLsbD_and, hmask k hk]
  cases toc.getLsbD k <;> cases (3 : Byte).getLsbD k <;> rfl

theorem reframe_eq (r : Parsed) (p : List Byte) (t : Nat) :
    reframe r p t = ((r.toc &&& 0xFC) ||| 3) ::
      BitVec.ofNat 8 (128 * (needsLens r.lens).toNat + 64 * (if 1 ≤ t - baseSize r.lens then 1 else 0) + r.lens.length) ::
      (padField (t - baseSize r.lens) ++ (if (needsLens r.lens).toNat = 1 then r.lens.dropLast.flatMap encLen else []) ++
        (r.frames p).flatten ++ padData (t - baseSize r.lens)) := by
  have hpadded : (decide (t - baseSize r.lens ≥ 1)).toNat = if 1 ≤ t - baseSize r.lens then 1 else 0 :=
    Bool.cond_decide _ _ _
  simp only [reframe, ← or_three_eq, countByte, hpadded, lenFields, Bool.toNat_eq_one]

/-! ### The obligation -/

/-- Once the padding is read, a packet of frame code 3 is the frames before the padding data (R197). -/
theorem parsePacket_code3_frames {toc cb : Byte} {body : List Byte} (h : (toc.extractLsb' 0 2).toNat = 3)
    {pad i stop : Nat} (hm : (cb.extractLsb' 0 6).toNat ≠ 0) (hread : PaddingRead cb body pad i)
    (hstop : stop + pad = (toc :: cb :: body).length) :
    parsePacket (toc :: cb :: body) = (parseCode3Frames toc (toc :: cb :: body) (cb.getLsbD 7)
      (cb.extractLsb' 0 6).toNat i stop).bind Parsed.checked := by
  rw [parsePacket_code3 h, parseCode3_frames hm hread hstop]

theorem parsePacket_code3_eq_none {toc : Byte} {rest : List Byte} (h : (toc.extractLsb' 0 2).toNat = 3)
    (hnone : parseCode3 toc (toc :: rest) = none) : parsePacket (toc :: rest) = none := by
  rw [parsePacket_code3 h, hnone]
  rfl

/-- Settles O44: sizes by `fits_of_parsePacket` and `length_reframe`, each frame code by its equation, then the stored
lengths, the frames and the bytes of the re-framed packet. -/
theorem reframingReachesEveryLargerSizeExactly : Obligations.ReframingReachesEveryLargerSizeExactly := by
  refine ⟨fun p r t hr ht => ⟨(fits_of_parsePacket hr).base, length_reframe hr ht⟩, rfl, ?parse, ?stored, ?frames, ?bytes⟩
  case parse =>
    rintro _ rest toc _ rfl rfl
    refine ⟨parsePacket_code0, parsePacket_code1, fun h2 => ⟨parsePacket_code2_cut h2, fun l0 u hl => ?_⟩, fun h3 => ⟨?_, ?_⟩⟩
    · exact parsePacket_code2_length h2 hl
    · rintro rfl
      exact parsePacket_code3_eq_none h3 rfl
    · rintro cb body _ rfl rfl
      refine ⟨fun hm => parsePacket_code3_eq_none h3 (parseCode3_count_zero hm),
        fun h6 hpad => parsePacket_code3_eq_none h3 (parseCode3_padding_cut h6 hpad), fun pad i hm hread =>
        ⟨fun hlong => parsePacket_code3_eq_none h3 (parseCode3_padding_too_long hm hread hlong),
          fun stop hstop hi => ⟨fun h7 => ?_, fun h7 => ⟨fun hcut => ?_, fun lens used hl => ?_⟩⟩⟩⟩
      all_goals rw [parsePacket_code3_frames h3 hm hread hstop, h7]
      · exact bind_checked (parseCode3Frames_equal hi) (checked_equal hm _)
      · rw [parseCode3Frames_stored_cut hcut]
        rfl
      · exact bind_checked (parseCode3Frames_stored hi hl) (checked_stored hl _)
  case stored =>
    refine fun k bs => ⟨rfl, readLens_succ_eq_none, fun l u hl => ?_⟩
    rw [readLens_succ hl]
    exact ⟨fun hnone => by rw [hnone]; rfl, fun lens used hsome => by rw [hsome]; rfl⟩
  case frames => exact fun r p => ⟨length_framesAt p r.first r.lens, fun j hj => getD_framesAt hj⟩
  case bytes =>
    rintro r p t v base _ hv hbase rfl
    rw [← toNat_needsLens] at hv
    subst hv
    rw [← baseSize_eq] at hbase
    subst hbase
    exact ⟨rfl, reframe_eq r p t⟩

end Sys2Proof.Machine
end

section
/-! PROOFS. Family 30_encoding.md, a built packet parses to its units (R91, R197, R216): the reader's fields are those the
builder writes, and the frames are cut where the units were joined. -/

namespace Sys2Proof.Machine

open Sys2Proof.Config

/-! ### The fields of the TOC and of the count byte -/

theorem code_or_three (base : Byte) : ((base ||| 3).extractLsb' 0 2).toNat = 3 := by
  rw [BitVec.extractLsb'_or]
  exact congrArg BitVec.toNat BitVec.or_allOnes

section CountByte
variable {m : Nat} (v padded : Bool)

theorem toNat_countByte (hm : m < 64) : (countByte v padded m).toNat = 128 * v.toNat + 64 * padded.toNat + m :=
  toNat_byte (by have := v.toNat_le; have := padded.toNat_le; omega)

theorem countByte_count (hm : m < 64) : ((countByte v padded m).extractLsb' 0 6).toNat = m := by
  rw [BitVec.extractLsb'_toNat, toNat_countByte v padded hm, Nat.shiftRight_zero]
  omega

theorem countByte_padded (hm : m < 64) : (countByte v padded m).getLsbD 6 = padded := by
  have hbit : (countByte v padded m).toNat / 2 ^ 6 % 2 = padded.toNat := by
    have := padded.toNat_le
    rw [toNat_countByte v padded hm]
    omega
  rw [BitVec.getLsbD, Nat.testBit_eq_decide_div_mod_eq, hbit]
  cases padded <;> rfl

theorem countByte_stored (hm : m < 64) : (countByte v padded m).getLsbD 7 = v := by
  have hbit : (countByte v padded m).toNat / 2 ^ 7 % 2 = v.toNat := by
    have := v.toNat_le
    have := padded.toNat_le
    rw [toNat_countByte v padded hm]
    omega
  rw [BitVec.getLsbD, Nat.testBit_eq_decide_div_mod_eq, hbit]
  cases v <;> rfl

theorem parsePacket_countByte (base : Byte) {body : List Byte} {pad i stop : Nat} (hpos : m ≠ 0) (hm : m < 64)
    (hread : PaddingRead (countByte v padded m) body pad i) (hstop : stop + pad = body.length + 2) :
    parsePacket ((base ||| 3) :: countByte v padded m :: body) =
      (parseCode3Frames (base ||| 3) ((base ||| 3) :: countByte v padded m :: body) v m i stop).bind Parsed.checked := by
  have hcount := countByte_count v padded hm
  rw [parsePacket_code3_frames (code_or_three base) (by rwa [hcount]) hread hstop, countByte_stored v padded hm, hcount]

theorem paddingRead_countByte_false (hm : m < 64) (body : List Byte) : PaddingRead (countByte v false m) body 0 2 :=
  .inl ⟨countByte_padded v false hm, rfl, rfl⟩

end CountByte

/-! ### Cutting a packet where its units were joined -/

theorem framesAt_append_flatten (before after : List Byte) (units : List (List Byte)) :
    framesAt (before ++ (units.flatten ++ after)) before.length (units.map List.length) = units := by
  induction units generalizing before with
  | nil => rfl
  | cons u units ih =>
    have hrest := ih (before ++ u)
    rw [List.length_append, List.append_assoc] at hrest
    rw [List.map_cons, framesAt, List.flatten_cons, List.append_assoc, hrest, List.drop_left, List.take_left]

/-! ### A packet of one unit -/

theorem parsePacket_buildSingle {base : Byte} {u : List Byte} (hbase : base.extractLsb' 0 2 = 0) (hu : u.length ≤ 1275) :
    parsePacket (buildSingle base u) = some ⟨base, [u.length], 1⟩ := by
  rw [buildSingle, parsePacket_code0 (by rw [hbase]; rfl), if_pos hu]

/-! ### A packet of several units -/

/-- The length fields of a packet of several units: all but the last (R216). -/
def unitFields (units : List (List Byte)) : List Byte := (units.dropLast.map List.length).flatMap encLen

theorem buildMulti_eq (base : Byte) (units : List (List Byte)) :
    buildMulti base units = (base ||| 3) :: countByte true false units.length :: (unitFields units ++ units.flatten) := rfl

theorem readLens_unitFields {init : List (List Byte)} (last : List Byte) (hinit : ∀ u ∈ init, u.length ≤ 1275)
    (rest : List Byte) : readLens init.length (unitFields (init ++ [last]) ++ rest) =
      some (init.map List.length, (unitFields (init ++ [last])).length) := by
  have hread := readLens_flatMap_encLen (List.forall_mem_map.mpr hinit) rest
  rw [List.length_map] at hread
  rw [unitFields, List.dropLast_concat, hread, length_flatMap_encLen]

theorem length_buildMulti_concat (base : Byte) (init : List (List Byte)) (last : List Byte) :
    (buildMulti base (init ++ [last])).length =
      2 + (unitFields (init ++ [last])).length + ((init.map List.length).sum + last.length) := by
  simp only [buildMulti_eq, List.length_cons, List.length_append, List.length_flatten, List.map_append, List.sum_append,
    List.map_singleton, List.sum_singleton]
  omega

/-- Up to 63 units, as many as the count byte counts (R91). -/
theorem parsePacket_buildMulti (base : Byte) {units : List (List Byte)} (hpos : units ≠ []) (hcount : units.length < 64)
    (hlens : ∀ u ∈ units, u.length ≤ 1275) :
    parsePacket (buildMulti base units) =
      some ⟨base ||| 3, units.map List.length, 2 + (unitFields units).length⟩ := by
  have hcode3 : parsePacket (buildMulti base units) = (parseCode3Frames (base ||| 3) (buildMulti base units) true
      units.length 2 (buildMulti base units).length).bind Parsed.checked :=
    parsePacket_countByte true false base (mt List.eq_nil_of_length_eq_zero hpos) hcount
      (paddingRead_countByte_false true hcount _) rfl
  obtain ⟨init, last, rfl⟩ : ∃ init last, units = init ++ [last] :=
    ⟨_, _, (List.dropLast_append_getLast hpos).symm⟩
  rw [List.forall_mem_append, List.forall_mem_singleton] at hlens
  obtain ⟨hinit, hlast⟩ := hlens
  have hsize := length_buildMulti_concat base init last
  have hread : readLens ((init ++ [last]).length - 1)
      (((buildMulti base (init ++ [last])).take (buildMulti base (init ++ [last])).length).drop 2) =
      some (init.map List.length, (unitFields (init ++ [last])).length) := by
    rw [List.take_length, List.length_append]
    exact readLens_unitFields last hinit _
  have hrest : (buildMulti base (init ++ [last])).length -
      (2 + (unitFields (init ++ [last])).length + (init.map List.length).sum) = last.length := by
    omega
  rw [hcode3, bind_checked (parseCode3Frames_stored (by omega) hread) (checked_stored hread _), hrest,
    if_pos ⟨by omega, hlast⟩, List.map_append, List.map_singleton]

theorem frames_buildMulti (base : Byte) (units : List (List Byte)) :
    framesAt (buildMulti base units) (2 + (unitFields units).length) (units.map List.length) = units := by
  have h := framesAt_append_flatten ((base ||| 3) :: countByte true false units.length :: unitFields units) [] units
  rw [List.append_nil, List.length_cons, List.length_cons, Nat.add_comm _ 1, Nat.add_comm _ 1, ← Nat.add_assoc] at h
  exact h

theorem frames_buildSingle (base : Byte) (u : List Byte) : framesAt (buildSingle base u) 1 [u.length] = [u] := by
  have h := framesAt_append_flatten [base] [] [u]
  rw [List.append_nil, List.flatten_singleton] at h
  exact h

theorem builtPacket_of_length_ne_one (base : Byte) {units : List (List Byte)} (h : units.length ≠ 1) :
    builtPacket base units = buildMulti base units := by
  unfold builtPacket
  split
  · exact absurd rfl h
  · rfl

/-- Settles O46: `buildSingle` is a packet of frame code 0, `buildMulti` one of frame code 3 with stored lengths. -/
theorem builtPacketParsesToItsUnits : Obligations.BuiltPacketParsesToItsUnits := by
  intro base units hbase hmin hmax hlens
  by_cases hone : units.length = 1
  · obtain ⟨u, rfl⟩ := List.length_eq_one_iff.mp hone
    exact ⟨_, parsePacket_buildSingle hbase (hlens u List.mem_cons_self), frames_buildSingle base u, rfl⟩
  · rw [builtPacket_of_length_ne_one base hone, if_neg hone]
    exact ⟨_, parsePacket_buildMulti base (List.ne_nil_of_length_pos hmin) (by omega) hlens, frames_buildMulti base units,
      rfl⟩

end Sys2Proof.Machine
end

section
/-! PROOFS. Family 40_primitives.md: the sigmoid (R117), its value on each of the six segments on either side of 0 and where
it decreases between neighbours; and the ranges of the VAD record under both multiplies (R147). -/

namespace Sys2Proof.Machine

/-! ### The segments -/

@[simp] theorem sigmClip_specNum : specNum.sigmClip = 192 := rfl

/-- `SIGM_POS_Q15[i]`, the breakpoint at `32 i`. -/
def sigmPosAt (i : Nat) : Int := specNum.sigmPos.getD i 0
/-- `SIGM_NEG_Q15[i]`, the breakpoint at `-32 i`. -/
def sigmNegAt (i : Nat) : Int := specNum.sigmNeg.getD i 0
/-- `SIGM_SLOPE_Q10[i]`. -/
def sigmSlopeAt (i : Nat) : Int := specNum.sigmSlope.getD i 0

theorem exists_segment {y : Int} (h0 : 0 ≤ y) (h192 : y < 192) :
    ∃ (i : Nat) (f : Int), i < 6 ∧ 0 ≤ f ∧ f < 32 ∧ y = 32 * i + f :=
  ⟨(y / 32).toNat, y % 32, by omega, by omega, by omega, by omega⟩

section Segment
variable {i : Nat} {f : Int} (hi : i < 6) (h0 : 0 ≤ f) (h32 : f < 32)
include hi h0 h32

theorem sigmoid15_segment : sigmoid15 specNum (32 * i + f) = sigmPosAt i + sigmSlopeAt i * f := by
  have hclip : ¬ 32 * (i : Int) + f ≥ specNum.sigmClip := by
    rw [sigmClip_specNum]
    omega
  have hindex : (asr (32 * i + f) 5).toNat = i := by
    simp only [asr]
    omega
  have hrest : (32 * (i : Int) + f) % 32 = f := by omega
  rw [sigmoid15, if_neg (by omega), if_neg hclip, hindex, hrest]
  rfl

theorem sigmoid15_neg_segment : sigmoid15 specNum (-(32 * i + f)) = sigmNegAt i - sigmSlopeAt i * f := by
  obtain hpos | hzero := lt_or_eq_of_le (show 0 ≤ 32 * (i : Int) + f by omega)
  · have hclip : ¬ - -(32 * (i : Int) + f) ≥ specNum.sigmClip := by
      rw [sigmClip_specNum]
      omega
    have hindex : (asr (- -(32 * (i : Int) + f)) 5).toNat = i := by
      simp only [asr]
      omega
    have hrest : - -(32 * (i : Int) + f) % 32 = f := by omega
    rw [sigmoid15, if_pos (by omega), if_neg hclip, hindex, hrest]
    rfl
  · obtain ⟨rfl, rfl⟩ : i = 0 ∧ f = 0 := by omega
    decide

end Segment

theorem sigmoid15_of_ge {x : Int} (h : 192 ≤ x) : sigmoid15 specNum x = 32767 := by
  rw [sigmoid15, if_neg (by omega), sigmClip_specNum, if_pos h]

theorem sigmoid15_of_le {x : Int} (h : x ≤ -192) : sigmoid15 specNum x = 0 := by
  rw [sigmoid15, if_pos (by omega), sigmClip_specNum, if_pos (by omega)]

/-! ### Where it decreases -/

theorem sigmSlopeAt_pos : ∀ i < 6, 0 < sigmSlopeAt i := by decide

/-- From 0 up, the end of a segment is above the next breakpoint at one joint. -/
theorem sigmPosAt_succ_lt_iff : ∀ i < 5, sigmPosAt (i + 1) < sigmPosAt i + sigmSlopeAt i * 31 ↔ i = 4 := by decide

/-- From 0 down, the end of a segment is below the next breakpoint at one joint. -/
theorem lt_sigmNegAt_succ_iff : ∀ i < 5, sigmNegAt i - sigmSlopeAt i * 31 < sigmNegAt (i + 1) ↔ i = 4 := by decide

theorem sigmoid15_succ_lt_iff_of_nonneg {x : Int} (hx : 0 ≤ x) :
    sigmoid15 specNum (x + 1) < sigmoid15 specNum x ↔ x = 159 := by
  obtain hclip | hclip := le_or_gt 192 x
  · rw [sigmoid15_of_ge hclip, sigmoid15_of_ge (by omega)]
    omega
  obtain ⟨i, f, hi, h0, h32, rfl⟩ := exists_segment hx hclip
  rw [sigmoid15_segment hi h0 h32]
  obtain hinside | rfl : f < 31 ∨ f = 31 := by omega
  · have hslope := sigmSlopeAt_pos i hi
    rw [add_assoc, sigmoid15_segment hi (by omega) (by omega), mul_add]
    omega
  · obtain hjoint | rfl : i < 5 ∨ i = 5 := by omega
    · have hnext : 32 * (i : Int) + 31 + 1 = 32 * (i + 1 : Nat) + 0 := by omega
      rw [hnext, sigmoid15_segment (by omega) le_rfl (by decide), mul_zero, add_zero, sigmPosAt_succ_lt_iff i hjoint]
      omega
    · decide

theorem sigmoid15_succ_lt_iff_of_neg {x : Int} (hx : x < 0) :
    sigmoid15 specNum (x + 1) < sigmoid15 specNum x ↔ x = -160 := by
  obtain hclip | hclip := le_or_gt x (-192)
  · have hnonneg := (sigmoid15_range (.inl rfl) (x + 1)).1
    rw [sigmoid15_of_le hclip]
    omega
  obtain ⟨i, f, hi, h0, h32, hneg⟩ := exists_segment (y := -x) (by omega) (by omega)
  obtain rfl : x = -(32 * i + f) := by omega
  rw [sigmoid15_neg_segment hi h0 h32]
  obtain hinside | rfl : 0 < f ∨ f = 0 := by omega
  · have hslope := sigmSlopeAt_pos i hi
    have hnext : -(32 * (i : Int) + f) + 1 = -(32 * i + (f - 1)) := by omega
    rw [hnext, sigmoid15_neg_segment hi (by omega) (by omega), mul_sub]
    omega
  · obtain ⟨j, rfl⟩ : ∃ j, i = j + 1 := ⟨i - 1, by omega⟩
    have hnext : -(32 * ((j + 1 : Nat) : Int) + 0) + 1 = -(32 * j + 31) := by omega
    rw [hnext, sigmoid15_neg_segment (by omega) (by decide) (by decide), mul_zero, sub_zero,
      lt_sigmNegAt_succ_iff j (by omega)]
    omega

/-- Settles O29: `sigmoid15_segment` and `sigmoid15_neg_segment` at each breakpoint, and the two joints at which the tables
step back. -/
theorem sigmoidSaturatesAndDecreasesExactlyTwice : Obligations.SigmoidSaturatesAndDecreasesExactlyTwice := by
  refine ⟨fun f h0 h32 => ?_, fun x => ⟨sigmoid15_range (.inl rfl) x, sigmoid15_of_ge, sigmoid15_of_le, ?_⟩⟩
  · have hpos (i : Nat) (hi : i < 6) := sigmoid15_segment hi h0 h32
    have hneg (i : Nat) (hi : i < 6) := sigmoid15_neg_segment hi h0 h32
    have hpos0 := hpos 0 (by decide)
    have hneg0 := hneg 0 (by decide)
    rw [show 32 * ((0 : Nat) : Int) + f = f by omega] at hpos0 hneg0
    exact ⟨hpos0, hpos 1 (by decide), hpos 2 (by decide), hpos 3 (by decide), hpos 4 (by decide), hpos 5 (by decide),
      hneg0, hneg 1 (by decide), hneg 2 (by decide), hneg 3 (by decide), hneg 4 (by decide), hneg 5 (by decide)⟩
  · obtain hneg | hnonneg := lt_or_ge x 0
    · rw [sigmoid15_succ_lt_iff_of_neg hneg]
      omega
    · rw [sigmoid15_succ_lt_iff_of_nonneg hnonneg]
      omega

/-! ### The ranges of the VAD record -/

/-- Settles O32: the step lemma of the invariant's VAD part holds for both numeric configurations. -/
theorem vadFrameKeepsTheRangesUnderBothMultiplies : Obligations.VadFrameKeepsTheRangesUnderBothMultiplies :=
  fun _ _ _ _ hP hlength hok => vadFrame_keeps_vadOk hP hlength hok

end Sys2Proof.Machine
end

section
/-! PROOFS. Family 40_primitives.md with 41_vad.md: what a frame does to the VAD record, rule by rule (R115, R118, R119,
R132 to R143). -/

namespace Sys2Proof.Machine

/-! ### The primitives as their formulas -/

theorem wrap32_eq (z : Int) : wrap32 z = (z + 2 ^ 31) % 2 ^ 32 - 2 ^ 31 := by
  simp only [wrap32, Int.bmod]
  omega

theorem wrap32_range (z : Int) : -2 ^ 31 ≤ wrap32 z ∧ wrap32 z < 2 ^ 31 := by
  rw [wrap32_eq]
  omega

/-- A register holds any number as its wrapped value (R8). -/
theorem toInt_toWord_wrap32 (z : Int) : (toWord (wrap32 z)).toInt = wrap32 z :=
  toInt_toWord (wrap32_range z).1 (wrap32_range z).2

/-- The seven bits after the leading one (R116): a shift by `7 - e`, to the right or to the left. -/
theorem frac7_eq (z : Int) : frac7 z = z * 128 / 2 ^ z.toNat.log2 % 128 := by
  simp only [frac7]
  generalize z.toNat.log2 = e
  obtain hright | hleft := le_or_gt 7 e
  · obtain ⟨d, rfl⟩ := Nat.exists_eq_add_of_le hright
    rw [if_pos hright, Nat.add_sub_cancel_left, asr, pow_add, show (2 : Int) ^ 7 = 128 from rfl, mul_comm z,
      Int.mul_ediv_mul_of_pos _ _ (by decide)]
  · obtain ⟨d, hd⟩ := Nat.exists_eq_add_of_le hleft.le
    have hsplit : z * 128 = z * 2 ^ d * 2 ^ e := by
      rw [mul_assoc, ← pow_add, Nat.add_comm, ← hd]
      rfl
    rw [if_neg (by omega), show 7 - e = d by omega, shl, hsplit, Int.mul_ediv_cancel _ (by positivity)]

/-- R118 on what fits a 32-bit word: 31 less the leading zeros is the exponent. -/
theorem log2Approx128_eq {z : Int} (h : z < 2 ^ 32) : log2Approx128 specNum z = if z ≤ 0 then 0
    else frac7 z + frac7 z * (128 - frac7 z) * 179 / 65536 + 128 * (z.toNat.log2 : Int) := by
  unfold log2Approx128
  split_ifs with hz
  · rfl
  · have hexp : z.toNat.log2 < 32 := (Nat.log2_lt (by omega)).mpr (by omega)
    have hshift : shl (31 - clz32 z) 7 = 128 * (z.toNat.log2 : Int) := by
      simp only [shl, clz32]
      omega
    rw [hshift]
    rfl

theorem isqrtApprox_of_nonpos {z : Int} (h : z ≤ 0) : isqrtApprox specNum z = 0 := if_pos h

theorem isqrtApprox_of_pos {z y : Int} {lz : Nat} (h : 0 < z) (hlz : lz = 31 - z.toNat.log2)
    (hy : y = (if lz % 2 = 1 then 32768 else 46214) / 2 ^ (lz / 2)) :
    isqrtApprox specNum z = y + y * (213 * frac7 z) / 65536 := by
  subst hlz hy
  exact if_neg (by omega)

/-! ### The bands -/

/-- R134: the splitter on a pair of samples. -/
theorem split_cons_cons (a b : Int) (rest : List Int) (s0 s1 y0 x0 p1 y1 x1 p2 : Int) (r : SplitOut)
    (hy0 : y0 = wrap32 (a * 1024 - s0)) (hx0 : x0 = wrap32 (y0 + mulQ16Round y0 (-24290))) (hp1 : p1 = wrap32 (s0 + x0))
    (hy1 : y1 = wrap32 (b * 1024 - s1)) (hx1 : x1 = mulQ16Round y1 10788) (hp2 : p2 = wrap32 (s1 + x1))
    (hr : r = split specNum rest (wrap32 (a * 1024 + x0)) (wrap32 (b * 1024 + x1))) :
    split specNum (a :: b :: rest) s0 s1 =
      ⟨sat16 ((wrap32 (p2 + p1) / 1024 + 1) / 2) :: r.lo, sat16 ((wrap32 (p2 - p1) / 1024 + 1) / 2) :: r.hi, r.s0, r.s1⟩ := by
  subst hr hp2 hx1 hy1 hp1 hx0 hy0
  rfl

/-- R135: each sample less the one before it. -/
theorem diffs_eq_zipWith (before : Int) (hs : List Int) :
    diffs before hs = List.zipWith (fun a b => a - b) hs (before :: hs) := by
  induction hs generalizing before with
  | nil => rfl
  | cons h hs ih => rw [diffs, ih, List.zipWith_cons_cons]

/-- A sum over the first entries of a list, where what lies past its end counts nothing. -/
theorem sum_map_take {f : Int → Int} (hf : f 0 = 0) (l : List Int) (n : Nat) :
    ((l.take n).map f).sum = ((List.range n).map (fun i => f (l.getD i 0))).sum := by
  induction l generalizing n with
  | nil => simp [hf]
  | cons a l ih =>
    cases n with
    | zero => rfl
    | succ n =>
      rw [List.take_succ_cons, List.map_cons, List.sum_cons, ih, List.range_succ_eq_map, List.map_cons, List.sum_cons,
        List.map_map]
      rfl

/-- R136: the sub-frames are quarters of the band. -/
theorem subEnergy_eq (band : List Int) (k : Nat) : subEnergy specNum band k =
    ((List.range (band.length / 4)).map (fun i => (band.getD (k * (band.length / 4) + i) 0 / 8) ^ 2)).sum := by
  have hsum := sum_map_take (f := fun x => asr x 3 * asr x 3) rfl (band.drop (k * (band.length / 4))) (band.length / 4)
  simp only [List.getD_eq_getElem?_getD, List.getElem?_drop, pow_two] at hsum ⊢
  exact hsum

theorem bandEnergy_eq (carry : Int) (band : List Int) :
    bandEnergy specNum carry band = min (min (min (min (carry + subEnergy specNum band 0) (2 ^ 31 - 1) +
      subEnergy specNum band 1) (2 ^ 31 - 1) + subEnergy specNum band 2) (2 ^ 31 - 1) + subEnergy specNum band 3 / 2)
      (2 ^ 31 - 1) := bandEnergy_specNum carry band

/-! ### The ratios and the tilt -/

theorem ite_gt_zero {α : Type} (z : Int) (a b : α) : (if z > 0 then a else b) = if z ≤ 0 then b else a := by
  simp only [← Int.not_lt, ite_not]

/-- R138: a band at or below its noise level has the ratio 1 in Q8. -/
theorem energyRatio_eq (x nl : Int) : energyRatio x nl = if signalPower x nl ≤ 0 then 256
    else if x < 2 ^ 23 then Int.tdiv (x * 256) (nl + 1) else Int.tdiv x (nl / 256 + 1) := by
  rw [energyRatio, ite_gt_zero]
  rfl

/-- What a band adds to the tilt sum (R139). -/
def tiltTerm (weight x nl : Int) : Int :=
  if signalPower x nl ≤ 0 then 0
  else mulQ16Round weight
    (if signalPower x nl < 2 ^ 20 then mulQ16Round (isqrtApprox specNum (signalPower x nl) * 64) (bandSnr specNum x nl)
      else bandSnr specNum x nl)

theorem wrap32_wrap32 (z : Int) : wrap32 (wrap32 z) = wrap32 z :=
  wrap32_of_range (wrap32_range z).1 (wrap32_range z).2

/-- A band that adds nothing leaves the wrapped sum as it is. -/
theorem addTilt_wrap32 (sum weight x nl : Int) :
    addTilt specNum (wrap32 sum) weight x nl = wrap32 (wrap32 sum + tiltTerm weight x nl) := by
  simp only [addTilt, tiltTerm]
  by_cases hsp : signalPower x nl ≤ 0
  · rw [if_neg (by omega), if_pos hsp, add_zero, wrap32_wrap32]
  · rw [if_pos (by omega), if_neg hsp]
    rfl

theorem tiltSum_eq (x nl : Quad Int) : tiltSum specNum x nl =
    wrap32 (wrap32 (wrap32 (wrap32 (tiltTerm 30000 x.b0 nl.b0) + tiltTerm 6000 x.b1 nl.b1) +
      tiltTerm (-12000) x.b2 nl.b2) + tiltTerm (-12000) x.b3 nl.b3) := by
  have hfirst : addTilt specNum 0 30000 x.b0 nl.b0 = wrap32 (tiltTerm 30000 x.b0 nl.b0) := by
    rw [← zero_add (tiltTerm _ _ _)]
    exact addTilt_wrap32 0 30000 x.b0 nl.b0
  change addTilt specNum (addTilt specNum (addTilt specNum (addTilt specNum 0 30000 _ _) 6000 _ _) (-12000) _ _)
    (-12000) _ _ = _
  rw [hfirst, addTilt_wrap32, addTilt_wrap32, addTilt_wrap32]

/-- The sigmoid's values make the tilt an even number of 16 bits (R139). -/
theorem tiltQ15_eq (x nl : Quad Int) : tiltQ15 specNum x nl = 2 * (sigmoid15 specNum (tiltSum specNum x nl) - 16384) :=
  mul_comm _ _

/-! ### The activity -/

theorem snrSq_eq (x nl : Int) : snrSq specNum x nl =
    if signalPower x nl ≤ 0 then 0 else bandSnr specNum x nl * bandSnr specNum x nl := by
  rw [snrSq, ite_gt_zero]

theorem rawActivity_eq (x nl : Quad Int) : rawActivity specNum x nl =
    sigmoid15 specNum (mulQ16Round 45000 (3 * isqrtApprox specNum (Int.tdiv
      ((if signalPower x.b0 nl.b0 ≤ 0 then 0 else bandSnr specNum x.b0 nl.b0 * bandSnr specNum x.b0 nl.b0) +
        (if signalPower x.b1 nl.b1 ≤ 0 then 0 else bandSnr specNum x.b1 nl.b1 * bandSnr specNum x.b1 nl.b1) +
        (if signalPower x.b2 nl.b2 ≤ 0 then 0 else bandSnr specNum x.b2 nl.b2 * bandSnr specNum x.b2 nl.b2) +
        (if signalPower x.b3 nl.b3 ≤ 0 then 0 else bandSnr specNum x.b3 nl.b3 * bandSnr specNum x.b3 nl.b3)) 4)) -
      128) := by
  simp only [rawActivity, vadNBands_specNum, snrSq_eq]
  rfl

theorem speechEnergy_eq (x nl : Quad Int) : speechEnergy x nl =
    wrap32 (wrap32 (wrap32 (wrap32 (signalPower x.b0 nl.b0 / 16) + 2 * (signalPower x.b1 nl.b1 / 16)) +
      3 * (signalPower x.b2 nl.b2 / 16)) + 4 * (signalPower x.b3 nl.b3 / 16)) := by
  rw [speechEnergy, zero_add, one_mul]
  rfl

theorem ite_asr_one (c : Prop) [Decidable c] (z : Int) : (if c then asr z 1 else z) = z / (if c then 2 else 1) := by
  split
  · rfl
  · rw [Int.ediv_one]

/-- R141, with the energy of the frame scaled to its length. -/
theorem scaledActivity_eq {n fs : Nat} {e0 e : Int} (he : e = e0 / (if n = 20 * fs then 2 else 1)) (sa : Int) :
    scaledActivity specNum n fs e0 sa = if e ≤ 0 then sa / 2
      else if e < 16384 then mulQ16Round (32768 + isqrtApprox specNum (e * 65536)) sa else sa := by
  rw [he, ← ite_asr_one]
  rfl

theorem smoothCoef_eq (n fs : Nat) (sa : Int) : smoothCoef specNum n fs sa =
    mulQ16Round 4096 (mulQ16Round sa sa) / (if n = 10 * fs then 2 else 1) := ite_asr_one _ _

/-! ### Four bands and their registers -/

/-- Four numbers, one per band, as one record. -/
def quadOf (f : Fin 4 → Int) : Quad Int := ⟨f 0, f 1, f 2, f 3⟩

/-- A property of the four bands, from the bands one by one. -/
theorem forall_band {p : Fin 4 → Prop} (h0 : p 0) (h1 : p 1) (h2 : p 2) (h3 : p 3) : ∀ k, p k
  | 0 => h0
  | 1 => h1
  | 2 => h2
  | 3 => h3

theorem get_map_quadOf (f : Fin 4 → Int) (g : Int → Word) : ∀ k, ((quadOf f).map g).get k = g (f k) :=
  forall_band rfl rfl rfl rfl

/-- A quotient is no larger than what is divided, so that every inverse level gives a level that fits (R137). -/
theorem nlOfInv_int32 (inv : Int) : -2 ^ 31 ≤ nlOfInv specNum inv ∧ nlOfInv specNum inv < 2 ^ 31 := by
  have hquot : (div32 int32Max inv).natAbs ≤ 2147483647 := Int.natAbs_tdiv_le_natAbs int32Max inv
  have hmax : specNum.nlMax = 0x00FFFFFF := rfl
  unfold nlOfInv
  omega

theorem toInt_toWord_sigmoid15 (z : Int) : (toWord (sigmoid15 specNum z)).toInt = sigmoid15 specNum z := by
  have hrange := sigmoid15_range (.inl rfl) z
  exact toInt_toWord (by omega) (by omega)

/-! ### A frame, register by register -/

section Frame
variable (v : VadRegs) (fs : Nat) (xs : List Int)

/-- The samples of band `k` (R133, R135). -/
def vadFrameBand (k : Fin 4) : List Int := (splitBands specNum v (xs.map toQ15)).band.get k

/-- The energy of band `k` (R136). -/
def vadFrameEnergy (k : Fin 4) : Int := bandEnergy specNum (v.xnrgSubfr.get k).toInt (vadFrameBand v xs k)

/-- The noise energy of band `k`, with its bias (R137). -/
def vadFrameNoise (k : Fin 4) : Int := noiseEnergy (vadFrameEnergy v xs k) (v.noiseBias.get k).toInt

/-- The inverse noise level of band `k` after the frame (R137). -/
def vadFrameInvNl (k : Fin 4) : Int :=
  nextInvNl specNum (minCoef specNum v.counter.toInt) (v.nl.get k).toInt (v.invNl.get k).toInt (v.noiseBias.get k).toInt
    (vadFrameEnergy v xs k)

/-- The noise level of band `k` after the frame (R137). -/
def vadFrameNl (k : Fin 4) : Int := nlOfInv specNum (vadFrameInvNl v xs k)

/-- The raw activity of the frame (R140). -/
def vadFrameRaw : Int := rawActivity specNum (quadOf (vadFrameEnergy v xs)) (quadOf (vadFrameNl v xs))

/-- The activity of the frame after power scaling (R141). -/
def vadFrameActivity : Int :=
  scaledActivity specNum xs.length fs (speechEnergy (quadOf (vadFrameEnergy v xs)) (quadOf (vadFrameNl v xs)))
    (vadFrameRaw v xs)

/-- The smoothed ratio of band `k` after the frame (R143). -/
def vadFrameRatio (k : Fin 4) : Int :=
  nextRatio specNum (smoothCoef specNum xs.length fs (vadFrameActivity v fs xs)) (v.nrgRatioSmthQ8.get k).toInt
    (energyRatio (vadFrameEnergy v xs k) (vadFrameNl v xs k))

/-- The registers after a frame are the words of these numbers. -/
theorem vadFrame_eq : vadFrame specNum v fs xs =
    { ana0 := (splitBands specNum v (xs.map toQ15)).ana0
      ana1 := (splitBands specNum v (xs.map toQ15)).ana1
      ana2 := (splitBands specNum v (xs.map toQ15)).ana2
      hpState := (splitBands specNum v (xs.map toQ15)).hpState
      counter := toWord (nextCounter specNum v.counter.toInt)
      nl := (quadOf (vadFrameNl v xs)).map toWord
      invNl := (quadOf (vadFrameInvNl v xs)).map toWord
      nrgRatioSmthQ8 := (quadOf (vadFrameRatio v fs xs)).map toWord
      noiseBias := v.noiseBias
      xnrgSubfr := (splitBands specNum v (xs.map toQ15)).band.map (fun band => toWord (lookAhead specNum band))
      qualityQ15 := (quadOf (vadFrameRatio v fs xs)).map (fun r => toWord (bandQuality specNum r))
      saQ8 := toWord (activityQ8 (vadFrameActivity v fs xs))
      tiltQ15 := toWord (tiltQ15 specNum (quadOf (vadFrameEnergy v xs)) (quadOf (vadFrameNl v xs)))
      active := decide (activityQ8 (vadFrameActivity v fs xs) ≥ specNum.vadActiveThresQ8) } := (rfl)

theorem toInt_vadFrame_nl (k : Fin 4) : ((vadFrame specNum v fs xs).nl.get k).toInt = vadFrameNl v xs k := by
  rw [vadFrame_eq, get_map_quadOf]
  exact toInt_toWord (nlOfInv_int32 _).1 (nlOfInv_int32 _).2

theorem toInt_vadFrame_invNl (k : Fin 4) : ((vadFrame specNum v fs xs).invNl.get k).toInt = vadFrameInvNl v xs k := by
  rw [vadFrame_eq, get_map_quadOf]
  exact toInt_toWord_wrap32 _

theorem toInt_vadFrame_ratio (k : Fin 4) :
    ((vadFrame specNum v fs xs).nrgRatioSmthQ8.get k).toInt = vadFrameRatio v fs xs k := by
  rw [vadFrame_eq, get_map_quadOf]
  exact toInt_toWord_wrap32 _

theorem toInt_vadFrame_quality (k : Fin 4) :
    ((vadFrame specNum v fs xs).qualityQ15.get k).toInt = bandQuality specNum (vadFrameRatio v fs xs k) := by
  rw [vadFrame_eq, get_map_quadOf]
  exact toInt_toWord_sigmoid15 _

theorem toInt_vadFrame_tilt : (vadFrame specNum v fs xs).tiltQ15.toInt =
    2 * (sigmoid15 specNum (tiltSum specNum (quadOf (vadFrameEnergy v xs)) (quadOf (vadFrameNl v xs))) - 16384) := by
  have hrange := sigmoid15_range (.inl rfl) (tiltSum specNum (quadOf (vadFrameEnergy v xs)) (quadOf (vadFrameNl v xs)))
  rw [vadFrame_eq, tiltQ15_eq]
  exact toInt_toWord (by omega) (by omega)

theorem activityQ8_vadFrameActivity :
    0 ≤ activityQ8 (vadFrameActivity v fs xs) ∧ activityQ8 (vadFrameActivity v fs xs) ≤ 255 :=
  activityQ8_range (scaledActivity_nonneg (.inl rfl) (rawActivity_range (.inl rfl) _ _))

theorem toInt_vadFrame_saQ8 : (vadFrame specNum v fs xs).saQ8.toInt = activityQ8 (vadFrameActivity v fs xs) := by
  have hrange := activityQ8_vadFrameActivity v fs xs
  rw [vadFrame_eq]
  exact toInt_toWord (by omega) (by omega)

theorem vadFrame_active : (vadFrame specNum v fs xs).active = true ↔ 13 ≤ (vadFrame specNum v fs xs).saQ8.toInt := by
  rw [toInt_vadFrame_saQ8, vadFrame_eq, decide_eq_true_iff]
  rfl

/-- R137: the counter stops at 1000. -/
theorem vadFrame_counter :
    (vadFrame specNum v fs xs).counter = if v.counter.toInt < 1000 then v.counter + 1 else v.counter := by
  change toWord (if v.counter.toInt < 1000 then v.counter.toInt + 1 else v.counter.toInt) = _
  split
  · rw [toWord, BitVec.ofInt_add, BitVec.ofInt_toInt]
    rfl
  · exact BitVec.ofInt_toInt

theorem vadFrame_xnrgSubfr : ∀ k,
    (vadFrame specNum v fs xs).xnrgSubfr.get k = toWord (subEnergy specNum (vadFrameBand v xs k) 3) :=
  forall_band rfl rfl rfl rfl

end Frame

/-! ### The obligation -/

/-- Settles O31: the intermediate values are the model's own, each with its rule above. -/
theorem vadFrameUpdatesNoiseCounterAndActivity : Obligations.VadFrameUpdatesNoiseCounterAndActivity := by
  rintro v fs xs v' rfl
  have hnl := toInt_vadFrame_nl v fs xs
  have hinv := toInt_vadFrame_invNl v fs xs
  have hratio := toInt_vadFrame_ratio v fs xs
  have hlevel (k : Fin 4) : ((vadFrame specNum v fs xs).nl.get k).toInt =
      min (Int.tdiv (2 ^ 31 - 1) ((vadFrame specNum v fs xs).invNl.get k).toInt) 0xFFFFFF := by
    rw [hnl, hinv]
    rfl
  have hsa := activityQ8_vadFrameActivity v fs xs
  rw [← toInt_vadFrame_saQ8] at hsa
  have htilt := toInt_vadFrame_tilt v fs xs
  have hsigmoid := sigmoid15_range (.inl rfl) (tiltSum specNum (quadOf (vadFrameEnergy v xs)) (quadOf (vadFrameNl v xs)))
  refine ⟨⟨hlevel 0, hlevel 1, hlevel 2, hlevel 3, vadFrame_counter v fs xs, rfl, hsa.1, hsa.2, vadFrame_active v fs xs,
    by omega, by omega, by omega⟩, ?_⟩
  simp only [hnl, hinv, hratio]
  refine ⟨wrap32, sat16, mulQ16Round, frac7, log2Approx128 specNum, isqrtApprox specNum, subEnergy specNum, _, _, _, _,
    vadFrameBand v xs, vadFrameEnergy v xs, vadFrameNoise v xs,
    fun k => div32 int32Max (vadFrameNoise v xs k),
    fun k => noiseCoef specNum (minCoef specNum v.counter.toInt) (v.nl.get k).toInt (vadFrameNoise v xs k),
    fun k => signalPower (vadFrameEnergy v xs k) (vadFrameNl v xs k),
    fun k => energyRatio (vadFrameEnergy v xs k) (vadFrameNl v xs k),
    fun k => bandSnr specNum (vadFrameEnergy v xs k) (vadFrameNl v xs k),
    specNum.tiltW.get,
    fun k => tiltTerm (specNum.tiltW.get k) (vadFrameEnergy v xs k) (vadFrameNl v xs k),
    minCoef specNum v.counter.toInt, tiltSum specNum (quadOf (vadFrameEnergy v xs)) (quadOf (vadFrameNl v xs)),
    vadFrameRaw v xs, _, vadFrameActivity v fs xs, smoothCoef specNum xs.length fs (vadFrameActivity v fs xs),
    -- the primitives: R8, R111, R115, R116, R118, R119
    wrap32_eq, fun _ => rfl, fun _ _ => rfl, fun z _ => frac7_eq z, fun _ => log2Approx128_eq,
    fun _ => isqrtApprox_of_nonpos, fun _ _ _ => isqrtApprox_of_pos,
    -- the sub-frames and the splitter: R136, R134
    subEnergy_eq, fun _ _ => rfl, split_cons_cons,
    -- the three splits, the all-pass registers and the differentiator: R132, R133, R135
    rfl, rfl, rfl, rfl, rfl, rfl, rfl, rfl, diffs_eq_zipWith _ _, rfl, rfl, rfl,
    -- the energies and the noise levels: R136, R137
    fun _ => bandEnergy_eq _ _, vadFrame_xnrgSubfr v fs xs, rfl, fun _ => rfl, fun _ => rfl, fun _ => rfl, fun _ => rfl,
    -- the ratios and the tilt: R138, R139
    fun _ => rfl, fun _ => energyRatio_eq _ _, fun _ => rfl, rfl, rfl, rfl, rfl, fun _ => rfl, tiltSum_eq _ _, htilt,
    -- the activity: R140 to R142
    rawActivity_eq _ _, rfl, ?scaled, toInt_vadFrame_saQ8 v fs xs,
    -- the smoothed ratios and the qualities: R143
    smoothCoef_eq _ _ _, fun _ => rfl, toInt_vadFrame_quality v fs xs⟩
  case scaled => exact scaledActivity_eq (by rw [speechEnergy_eq]; rfl) _

end Sys2Proof.Machine
end

section
/-! PROOFS. Family 41_vad.md: `VAD.INIT` (R146), the admission of `VAD.EVAL` (R130, R131, R142), and the all-zero frame from
the fresh VAD state (R145). -/

namespace Sys2Proof.Machine

open Sys2Proof.Config

/-! ### `VAD.INIT` -/

/-- Settles O28: the body writes `vadInit specNum` alone, which is the reset column `resetVad_eq`. -/
theorem vadInitRestoresTheVadRecordOnly : Obligations.VadInitRestoresTheVadRecordOnly := by
  intro s
  rw [← resetVad_eq]
  exact exec_eq_finish .vadInit s

/-! ### The admission of `VAD.EVAL` -/

/-- The body of `VAD.EVAL` as one chain of cases, in the order of R131. -/
theorem vadEval_eq {P : NumCfg} {s : State} {v : VadRegs}
    (hv : v = vadFrame P s.vad s.io.arg1.toNat (s.smpValues s.io.arg0.toNat)) : vadEval P s =
    if s.io.arg0.toNat = 0 then .ok ⟨s, 0, 0⟩
    else if s.io.arg1.toNat ∉ legalRatesKHz then .error (.badOperand 1)
    else if frameLenBad P s.io.arg0.toNat then .error (.badOperand 0)
    else if s.col.smpCount.toNat < s.io.arg0.toNat then .ok ⟨s, 0, 0⟩
    else .ok ⟨{ s with vad := v }, evalRes0 v, v.tiltQ15⟩ := by
  subst hv
  simp only [vadEval, raiseIf_bind]

theorem frameLenBad_specNum (n : Nat) : frameLenBad specNum n ↔ 960 < n ∨ n % 8 ≠ 0 := Iff.rfl

theorem not_frameLenBad {n : Nat} (hmax : n ≤ 960) (hmul : n % 8 = 0) : ¬ frameLenBad specNum n := by
  rw [frameLenBad_specNum]
  omega

theorem evalRes0_eq (v : VadRegs) : evalRes0 v = v.saQ8 + if v.active then 256 else 0 := rfl

theorem exec_vadEval (s : State) : exec .vadEval s = .next (s.finish 0x10 (vadEval specNum s)) :=
  exec_eq_finish .vadEval s

/-- Settles O30: the five cases are the branches of `vadEval_eq`. -/
theorem vadEvalAdmissionInOrder : Obligations.VadEvalAdmissionInOrder := by
  intro s
  rw [exec_vadEval, vadEval_eq rfl, legalRatesKHz]
  refine ⟨fun hn => ?noSamples, fun hn hfs => ?badRate, fun hn hfs hlen => ?badLength,
    fun hn hfs hmax hmul hwin => ?shortWindow, fun hn hfs hmax hmul hwin => ⟨_, rfl, ?admitted⟩⟩
  case noSamples => rw [if_pos hn, finish_ok]
  case badRate => rw [if_neg hn, if_pos hfs, finish_error]
  case badLength => rw [if_neg hn, if_neg (not_not.mpr hfs), if_pos ((frameLenBad_specNum _).mpr hlen), finish_error]
  case shortWindow =>
    rw [if_neg hn, if_neg (not_not.mpr hfs), if_neg (not_frameLenBad hmax hmul), if_pos hwin, finish_ok]
  case admitted =>
    rw [if_neg hn, if_neg (not_not.mpr hfs), if_neg (not_frameLenBad hmax hmul), if_neg (Nat.not_lt.mpr hwin), finish_ok,
      evalRes0_eq]

/-! ### The all-zero frame through the filters -/

/-- R134: a splitter at rest, fed zeros, stays at rest and gives zeros. -/
theorem split_replicate_zero (n : Nat) :
    split specNum (List.replicate n 0) 0 0 = ⟨List.replicate (n / 2) 0, List.replicate (n / 2) 0, 0, 0⟩ := by
  match n with
  | 0 | 1 => rfl
  | n + 2 =>
    have hpair := split_cons_cons 0 0 (List.replicate n 0) 0 0 _ _ _ _ _ _ _ rfl rfl rfl rfl rfl rfl
      (split_replicate_zero n).symm
    rw [show (n + 2) / 2 = n / 2 + 1 by omega]
    exact hpair

theorem splitReg_replicate_zero (n : Nat) : splitReg specNum (List.replicate n 0) ⟨0, 0⟩ =
    ⟨List.replicate (n / 2) 0, List.replicate (n / 2) 0, 0, 0⟩ := split_replicate_zero n

theorem halved_replicate_zero (n : Nat) : halved (List.replicate n 0) = List.replicate n 0 := List.map_replicate

theorem diffs_replicate_zero (n : Nat) : diffs 0 (List.replicate n 0) = List.replicate n 0 := by
  induction n with
  | zero => rfl
  | succ n ih => rw [List.replicate_succ, diffs, ih, sub_zero]

/-- R132, R133, R135: an all-zero frame gives four all-zero bands and leaves the filters at rest. -/
theorem splitBands_zero (n : Nat) : splitBands specNum resetVad ((List.replicate n 0).map toQ15) =
    { band := ⟨List.replicate (n / 2 / 2 / 2) 0, List.replicate (n / 2 / 2 / 2) 0, List.replicate (n / 2 / 2) 0,
        List.replicate (n / 2) 0⟩
      ana0 := ⟨0, 0⟩, ana1 := ⟨0, 0⟩, ana2 := ⟨0, 0⟩, hpState := 0 } := by
  have hconverted : toQ15 0 = 0 := rfl
  have hrest : (0 : BitVec 16).toInt = 0 := rfl
  have hlast (m : Nat) : (List.replicate m (0 : Int)).getLastD 0 = 0 := by
    cases m <;> simp [List.getLastD_eq_getLast?, List.getLast?_replicate]
  rw [resetVad_eq, List.map_replicate, hconverted]
  simp only [splitBands, splitReg_replicate_zero, halved_replicate_zero, hrest, diffs_replicate_zero, hlast]
  rfl

/-! ### The all-zero frame through the estimator and the activity -/

theorem subEnergy_replicate_zero (m k : Nat) : subEnergy specNum (List.replicate m 0) k = 0 := by
  simp [subEnergy, List.drop_replicate, List.take_replicate, asr]

/-- R136: silence carries no energy, from a record that carries none in. -/
theorem bandEnergy_replicate_zero (m : Nat) : bandEnergy specNum 0 (List.replicate m 0) = 0 := by
  simp only [bandEnergy_specNum, subEnergy_replicate_zero]
  rfl

/-- R143: with the coefficient 0 the smoothed ratio stays. -/
theorem nextRatio_zero (smth ratio : Int) : nextRatio specNum 0 smth ratio = wrap32 smth := by
  have hmul : specNum.mulQ16 (ratio - smth) 0 = 0 := by
    change mulQ16Round _ 0 = 0
    rw [mulQ16Round, mul_zero]
    rfl
  rw [nextRatio, hmul, add_zero]

section ZeroFrame
variable (n fs : Nat)

theorem exists_vadFrameBand_zero : ∀ k, ∃ m, vadFrameBand resetVad (List.replicate n 0) k = List.replicate m 0 := by
  simp only [vadFrameBand, splitBands_zero]
  exact forall_band ⟨_, rfl⟩ ⟨_, rfl⟩ ⟨_, rfl⟩ ⟨_, rfl⟩

theorem vadFrameEnergy_zero : vadFrameEnergy resetVad (List.replicate n 0) = fun _ => 0 := by
  have hcarry : ∀ k, (resetVad.xnrgSubfr.get k).toInt = 0 := by decide
  funext k
  obtain ⟨m, hm⟩ := exists_vadFrameBand_zero n k
  rw [vadFrameEnergy, hcarry, hm, bandEnergy_replicate_zero]

/-- R137 in the fresh state: the energy of a band is its bias alone, and the coefficient is `minCoef`. -/
theorem vadFrameInvNl_zero : quadOf (vadFrameInvNl resetVad (List.replicate n 0)) =
    ⟨21688935, 43377871, 67777924, 90370566⟩ := by
  simp only [quadOf, vadFrameInvNl, vadFrameEnergy_zero]
  decide

theorem vadFrameNl_zero : quadOf (vadFrameNl resetVad (List.replicate n 0)) = ⟨99, 49, 31, 23⟩ := by
  change (quadOf (vadFrameInvNl resetVad (List.replicate n 0))).map (nlOfInv specNum) = _
  rw [vadFrameInvNl_zero]
  decide

theorem vadFrameRaw_zero : vadFrameRaw resetVad (List.replicate n 0) = 589 := by
  rw [vadFrameRaw, vadFrameEnergy_zero, vadFrameNl_zero]
  decide

/-- R141: the speech energy is negative, halved or not, so that the activity is halved at every length and rate. -/
theorem vadFrameActivity_zero : vadFrameActivity resetVad fs (List.replicate n 0) = 294 := by
  have henergy : speechEnergy (quadOf fun _ => 0) ⟨99, 49, 31, 23⟩ = -29 := by decide
  have hsign : (-29 : Int) / (if (List.replicate n (0 : Int)).length = 20 * fs then 2 else 1) ≤ 0 := by split <;> decide
  rw [vadFrameActivity, vadFrameEnergy_zero, vadFrameNl_zero, vadFrameRaw_zero, henergy, scaledActivity_eq rfl,
    if_pos hsign]
  rfl

/-- R143: the smoothing coefficient of so small an activity is 0, so that the ratios stay. -/
theorem vadFrameRatio_zero (k : Fin 4) : vadFrameRatio resetVad fs (List.replicate n 0) k = 25600 := by
  have hcoef : smoothCoef specNum (List.replicate n (0 : Int)).length fs 294 = 0 := by
    rw [smoothCoef_eq]
    exact Int.zero_ediv _
  have hsmth : ∀ k, (resetVad.nrgRatioSmthQ8.get k).toInt = 25600 := by decide
  rw [vadFrameRatio, vadFrameActivity_zero, hcoef, hsmth, nextRatio_zero]
  rfl

end ZeroFrame

/-- Settles O33: the registers of `vadFrame_eq` at the numbers above; the tilt sum of four bands below their noise levels
is 0. -/
theorem allZeroFrameFromTheFreshState : Obligations.AllZeroFrameFromTheFreshState := by
  intro n fs
  rw [vadFrame_eq, splitBands_zero, vadFrameNl_zero, vadFrameInvNl_zero, vadFrameEnergy_zero, vadFrameActivity_zero,
    funext (vadFrameRatio_zero n fs)]
  simp only [Quad.map, lookAhead, subEnergy_replicate_zero]
  decide

end Sys2Proof.Machine
end

section
/-! PROOFS. Family 42_dtx.md: the admission of `DTX.DECIDE` (R161), what a decision leaves (R162 to R171), the bounds on a
suppression, and the run of an all-zero frame (R173). -/

namespace Sys2Proof.Machine

open Sys2Proof.Config

/-! ### The admission -/

/-- The body of `DTX.DECIDE` as one chain of cases, in the order of R161. -/
theorem dtxDecide_eq (P : NumCfg) (s : State) : dtxDecide P s =
    if s.io.arg1.toNat ∉ legalRatesKHz then .error (.badOperand 1)
    else if s.io.arg0.toNat = 0 ∨ frameLenBad P s.io.arg0.toNat then .error (.badOperand 0)
    else if s.col.smpCount.toNat < s.io.arg0.toNat then .error (.badOperand 2)
    else .ok (decideFrame P s s.io.arg1.toNat (s.smpValues s.io.arg0.toNat)) := by
  simp only [dtxDecide, raiseIf_bind]

theorem exec_dtxDecide (s : State) : exec .dtxDecide s = .next (s.finish 0x20 (dtxDecide specNum s)) :=
  exec_eq_finish .dtxDecide s

/-- A frame that R161 admits: `n` samples at `fs` kHz, in the operand registers and in the window. -/
structure FrameAdmitted (s : State) (n fs : Nat) : Prop where
  arg0 : s.io.arg0.toNat = n
  arg1 : s.io.arg1.toNat = fs
  rate : fs ∈ legalRatesKHz
  pos : n ≠ 0
  max : n ≤ 960
  mul : n % 8 = 0
  window : n ≤ s.col.smpCount.toNat

/-- Settles O34: the three errors are the branches of `dtxDecide_eq`. -/
theorem dtxDecideAdmissionInOrder : Obligations.DtxDecideAdmissionInOrder := by
  intro s
  rw [exec_dtxDecide, dtxDecide_eq, legalRatesKHz]
  refine ⟨fun hfs => ?badRate, fun hfs hlen => ?badLength, fun hfs hpos hmax hmul hwin => ?shortWindow⟩
  case badRate => rw [if_pos hfs, finish_error]
  case badLength =>
    rw [if_neg (not_not.mpr hfs), if_pos (hlen.imp_right (frameLenBad_specNum _).mpr), finish_error]
  case shortWindow =>
    rw [if_neg (not_not.mpr hfs), if_neg (not_or.mpr ⟨hpos, not_frameLenBad hmax hmul⟩), if_pos hwin, finish_error]

theorem dtxDecide_of_admitted {s : State} {n fs : Nat} (h : FrameAdmitted s n fs) :
    dtxDecide specNum s = .ok (decideFrame specNum s fs (s.smpValues n)) := by
  obtain ⟨rfl, rfl, hfs, hpos, hmax, hmul, hwin⟩ := h
  rw [dtxDecide_eq, if_neg (not_not.mpr hfs), if_neg (not_or.mpr ⟨hpos, not_frameLenBad hmax hmul⟩),
    if_neg (Nat.not_lt.mpr hwin)]

/-- A decision that succeeds is that of the frame in the window. -/
theorem eq_decideFrame_of_dtxDecide {P : NumCfg} {s : State} {d : Done} (h : dtxDecide P s = .ok d) :
    d = decideFrame P s s.io.arg1.toNat (s.smpValues s.io.arg0.toNat) := by
  obtain ⟨-, h⟩ := raiseIf_bind_eq_ok h
  obtain ⟨-, h⟩ := raiseIf_bind_eq_ok h
  obtain ⟨-, h⟩ := raiseIf_bind_eq_ok h
  cases h
  rfl

/-! ### Silence, peak and classification -/

/-- R164. -/
theorem isSilence_iff (depth : Nat) (xs : List Int) :
    isSilence depth xs = true ↔ ∀ x ∈ xs, 2 * x.natAbs < 2 ^ (24 - depth) := by
  simp only [isSilence, List.all_eq_true, decide_eq_true_eq]

/-- R166. -/
theorem trackPeak_eq (silence anaValid : Bool) (prob peak e : Nat) :
    trackPeak specNum silence anaValid prob peak e =
      if silence = false ∧ ¬(anaValid = true ∧ prob < 3277) then max (peak * 32735 / 32768) e else peak := by
  simp only [trackPeak, Bool.not_eq_true]
  rfl

/-- R167: the three cases of the precedence. -/
theorem classify_iff (silence anaValid : Bool) (prob peak e : Nat) :
    classify specNum silence anaValid prob peak e = true ↔ silence = false ∧
      ((anaValid = true ∧ (3277 ≤ prob ∨ peak * 256 < 80955 * e)) ∨ (anaValid = false ∧ peak * 384 < 80955 * e)) := by
  have hcut : specNum.probCutQ15 = 3277 := rfl
  have hk : specNum.psnrKQ8 = 80955 := rfl
  have hboost : specNum.peakBoostQ8 = 384 := rfl
  rw [classify, hcut, hk, hboost]
  cases silence with
  | true => simp
  | false =>
    cases anaValid with
    | true => by_cases hprob : 3277 ≤ prob <;> simp [hprob]
    | false => simp

/-- R167 (a). -/
theorem classify_silence (P : NumCfg) (anaValid : Bool) (prob peak e : Nat) :
    classify P true anaValid prob peak e = false := rfl

/-! ### The state machine and the comfort-noise schedule -/

theorem decideDtx_active (P : NumCfg) (was : Bool) (dur peak d : Nat) :
    decideDtx P true was dur peak d = ⟨false, 0, if was then 0 else peak⟩ := rfl

/-- R168: "still ramping". -/
theorem decideDtx_ramp {dur d : Nat} (h : dur + d ≤ 400) (was : Bool) (peak : Nat) :
    decideDtx specNum false was dur peak d = ⟨false, dur + d, peak⟩ := if_pos h

/-- R168: "enter or stay in SUPPRESSED". -/
theorem decideDtx_suppressed {dur d : Nat} (h : 400 < dur + d) (hmax : dur + d ≤ 1200) (was : Bool) (peak : Nat) :
    decideDtx specNum false was dur peak d = ⟨true, dur + d, peak⟩ :=
  (if_neg (Nat.not_le.mpr h)).trans (if_pos hmax)

/-- R168: "one full packet, counter to threshold". -/
theorem decideDtx_overflow {dur d : Nat} (h : 1200 < dur + d) (was : Bool) (peak : Nat) :
    decideDtx specNum false was dur peak d = ⟨false, 400, peak⟩ := by
  have hpast : ¬ dur + d ≤ 400 := by omega
  exact (if_neg hpast).trans (if_neg (Nat.not_le.mpr h))

/-- R168 up to 600 ms: the duration accumulates, and the frame is suppressed exactly past 200 ms. -/
theorem decideDtx_inactive {dur d : Nat} (hmax : dur + d ≤ 1200) (was : Bool) (peak : Nat) :
    decideDtx specNum false was dur peak d = ⟨decide (400 < dur + d), dur + d, peak⟩ := by
  obtain hramp | hpast := le_or_gt (dur + d) 400
  · rw [decideDtx_ramp hramp, decide_eq_false (Nat.not_lt.mpr hramp)]
  · rw [decideDtx_suppressed hpast hmax, decide_eq_true hpast]

/-- R168: an inactive frame keeps the peak tracker, at the automatic exit too. -/
theorem decideDtx_inactive_peak (was : Bool) (dur peak d : Nat) :
    (decideDtx specNum false was dur peak d).peak = peak := by
  obtain hmax | hover := le_or_gt (dur + d) 1200
  · rw [decideDtx_inactive hmax]
  · rw [decideDtx_overflow hover]

/-- R173 (1). -/
theorem decideDtx_suppress_range {active was : Bool} {dur peak d : Nat}
    (h : (decideDtx specNum active was dur peak d).suppress = true) :
    400 < (decideDtx specNum active was dur peak d).dur ∧ (decideDtx specNum active was dur peak d).dur ≤ 1200 := by
  cases active with
  | true => cases h
  | false =>
    obtain hmax | hover := le_or_gt (dur + d) 1200
    · rw [decideDtx_inactive hmax] at h ⊢
      exact ⟨of_decide_eq_true h, hmax⟩
    · rw [decideDtx_overflow hover] at h
      cases h

/-- R169: outside a suppression nothing is due and nothing elapses. -/
theorem scheduleCn_off (elapsed d interval : Nat) : scheduleCn false elapsed d interval = (false, 0) := rfl

theorem scheduleCn_due {elapsed d interval : Nat} (h : interval ≤ elapsed + d) :
    scheduleCn true elapsed d interval = (true, 0) := if_pos h

theorem scheduleCn_waiting {elapsed d interval : Nat} (h : elapsed + d < interval) :
    scheduleCn true elapsed d interval = (false, elapsed + d) := if_neg (Nat.not_le.mpr h)

/-! ### The numbers of one decision -/

section Frame
variable (s : State) (fs : Nat) (xs : List Int)

/-- The tracked peak before the state machine (R166). -/
def framePeak : Nat :=
  trackPeak specNum (isSilence s.cfg.lsbDepth.toNat xs) s.col.anaValid s.col.anaProbQ15.toNat s.dtx.peak.toNat
    (frameEnergy xs)

/-- The classification of the frame (R167). -/
def frameActive : Bool :=
  classify specNum (isSilence s.cfg.lsbDepth.toNat xs) s.col.anaValid s.col.anaProbQ15.toNat (framePeak s xs)
    (frameEnergy xs)

/-- What the state machine decides, enabled or not (R168, R171). -/
def frameDecision : Decision :=
  if s.cfg.flags.dtxEn then
    decideDtx specNum (frameActive s xs) s.dtx.stat.inDtx s.dtx.durQ1.toNat (framePeak s xs) (frameDurQ1 xs.length fs)
  else decideOff (framePeak s xs)

/-- Whether comfort noise is due, and the elapsed time after the frame (R169). -/
def frameCn : Bool × Nat :=
  scheduleCn (frameDecision s fs xs).suppress s.dtx.cnElapsedQ1.toNat (frameDurQ1 xs.length fs) s.cfg.cnIntervalQ1.toNat

/-- The records and the results after a frame are the words of these numbers. -/
theorem decideFrame_eq : decideFrame specNum s fs xs =
    { state := { s with
        vad := vadFrame specNum s.vad fs xs
        dtx :=
          { durQ1 := BitVec.ofNat 32 (frameDecision s fs xs).dur
            stat := ⟨(frameDecision s fs xs).suppress, (frameDecision s fs xs).suppress, (frameCn s fs xs).1,
              frameActive s xs, isSilence s.cfg.lsbDepth.toNat xs, true⟩
            peak := BitVec.ofNat 64 (frameDecision s fs xs).peak
            frameDurQ1 := BitVec.ofNat 32 (frameDurQ1 xs.length fs)
            cnElapsedQ1 := BitVec.ofNat 32 (frameCn s fs xs).2
            energy := BitVec.ofNat 64 (frameEnergy xs) } }
      res0 := decideRes0 (frameDecision s fs xs).suppress (frameCn s fs xs).1 (frameActive s xs)
        (isSilence s.cfg.lsbDepth.toNat xs) (vadFrame specNum s.vad fs xs).active
      res1 := (vadFrame specNum s.vad fs xs).saQ8 } := (rfl)

variable {s fs xs}

/-- R171. -/
theorem frameDecision_off (h : s.cfg.flags.dtxEn = false) : frameDecision s fs xs = ⟨false, 0, framePeak s xs⟩ :=
  if_neg (Bool.eq_false_iff.mp h)

theorem frameDecision_on (h : s.cfg.flags.dtxEn = true) : frameDecision s fs xs =
    decideDtx specNum (frameActive s xs) s.dtx.stat.inDtx s.dtx.durQ1.toNat (framePeak s xs)
      (frameDurQ1 xs.length fs) := if_pos h

/-- R173 (1), with DTX enabled or not. -/
theorem frameDecision_suppress (h : (frameDecision s fs xs).suppress = true) :
    s.cfg.flags.dtxEn = true ∧ 400 < (frameDecision s fs xs).dur ∧ (frameDecision s fs xs).dur ≤ 1200 := by
  cases hen : s.cfg.flags.dtxEn with
  | false =>
    rw [frameDecision_off hen] at h
    cases h
  | true =>
    rw [frameDecision_on hen] at h ⊢
    exact ⟨rfl, decideDtx_suppress_range h⟩

end Frame

/-- R170: the flag word as a sum of its bits. -/
theorem decideRes0_eq : ∀ suppress emitCn active silence vadActive : Bool,
    decideRes0 suppress emitCn active silence vadActive = BitVec.ofNat 32 (suppress.toNat + 2 * emitCn.toNat
      + 4 * active.toNat + 8 * silence.toNat + 16 * vadActive.toNat) := by decide

/-! ### The obligations on one decision -/

/-- Settles O35: the four outputs are the numbers of `decideFrame_eq`, each case of the rules one lemma above. -/
theorem dtxDecideRunsTheStateMachine : Obligations.DtxDecideRunsTheStateMachine := by
  rintro s n fs d e peak xs v silence active hn hfs hrate hpos hmax hmul hwin rfl rfl hd hsilence he hpeak hactive
  have hlen : (s.smpValues n).length = n := length_smpValues s n
  obtain rfl : silence = isSilence s.cfg.lsbDepth.toNat (s.smpValues n) :=
    Bool.eq_iff_iff.mpr (hsilence.trans (isSilence_iff _ _).symm)
  obtain rfl : e = frameEnergy (s.smpValues n) := by rw [he, frameEnergy, hlen]
  obtain rfl : peak = framePeak s (s.smpValues n) := hpeak.trans (trackPeak_eq _ _ _ _ _).symm
  obtain rfl : active = frameActive s (s.smpValues n) :=
    Bool.eq_iff_iff.mpr (hactive.trans (classify_iff _ _ _ _ _).symm)
  obtain rfl : d = frameDurQ1 (s.smpValues n).length fs := by rw [hd, frameDurQ1, hlen]
  refine ⟨(frameDecision s fs (s.smpValues n)).suppress, (frameCn s fs (s.smpValues n)).1,
    (frameDecision s fs (s.smpValues n)).dur, (frameDecision s fs (s.smpValues n)).peak,
    (frameCn s fs (s.smpValues n)).2, fun hoff => ?disabled, fun hon hact => ?active,
    fun hon hact => ?inactive, fun hsup => ?notSuppressed, fun hsup hdue => ?due, fun hsup hwait => ?waiting, ?next⟩
  case disabled =>
    rw [frameDecision_off hoff]
    exact ⟨rfl, rfl, rfl⟩
  case active =>
    rw [frameDecision_on hon, hact, decideDtx_active]
    exact ⟨rfl, rfl, rfl⟩
  case inactive =>
    rw [frameDecision_on hon, hact]
    refine ⟨decideDtx_inactive_peak _ _ _ _, fun hramp => ?ramp, fun hpast hlimit => ?suppressed,
      fun hover => ?overflow⟩
    case ramp =>
      rw [decideDtx_ramp hramp]
      exact ⟨rfl, rfl⟩
    case suppressed =>
      rw [decideDtx_suppressed hpast hlimit]
      exact ⟨rfl, rfl⟩
    case overflow =>
      rw [decideDtx_overflow hover]
      exact ⟨rfl, rfl⟩
  case notSuppressed =>
    rw [frameCn, hsup, scheduleCn_off]
    exact ⟨rfl, rfl⟩
  case due =>
    rw [frameCn, hsup, scheduleCn_due hdue]
    exact ⟨rfl, rfl⟩
  case waiting =>
    rw [frameCn, hsup, scheduleCn_waiting hwait]
    exact ⟨rfl, rfl⟩
  case next =>
    rw [exec_dtxDecide, dtxDecide_of_admitted ⟨hn.symm, hfs.symm, hrate, hpos, hmax, hmul, hwin⟩, finish_ok,
      decideFrame_eq, decideRes0_eq]

/-- Settles O36: success is the decision of a frame, whose flags stand in `decideFrame_eq`. -/
theorem dtxNeverSuppressesBeforeTheThreshold : Obligations.DtxNeverSuppressesBeforeTheThreshold := by
  intro s t h herr
  obtain ⟨d, hd, rfl⟩ | ⟨e, -, rfl⟩ := exec_cases h
  · rw [eq_decideFrame_of_dtxDecide hd, decideFrame_eq]
    refine ⟨fun hsup => ?_, rfl, suppress_of_scheduleCn, rfl⟩
    obtain ⟨hen, hlo, hhi⟩ := frameDecision_suppress hsup
    refine ⟨hen, ?_⟩
    rw [complete_dtx, BitVec.toNat_ofNat, Nat.mod_eq_of_lt (by omega)]
    exact ⟨hlo, hhi⟩
  · exact absurd herr (code_ne_zero e)

/-! ### Runs of decisions on an all-zero frame -/

/-- The premises of R173 (2) and (3) that no decision changes: DTX enabled and an admitted all-zero frame in the window. -/
structure SilentInput (s : State) (n fs : Nat) : Prop where
  dtxEn : s.cfg.flags.dtxEn = true
  admitted : FrameAdmitted s n fs
  zero : ∀ i, i < n → s.sampleAt (0x8000 + 4 * i) = 0

theorem smpValues_eq_replicate {s : State} {n : Nat} (h : ∀ i, i < n → s.sampleAt (0x8000 + 4 * i) = 0) :
    s.smpValues n = List.replicate n 0 := by
  refine List.eq_replicate_iff.mpr ⟨length_smpValues s n, fun x hx => ?_⟩
  obtain ⟨b, hb, rfl⟩ := List.mem_map.mp hx
  obtain ⟨i, hi, rfl⟩ := List.mem_map.mp hb
  exact congrArg BitVec.toInt (h i (List.mem_range.mp hi))

/-- R164: an all-zero frame is silent at every bit depth. -/
theorem isSilence_replicate_zero (depth n : Nat) : isSilence depth (List.replicate n 0) = true := by
  refine (isSilence_iff _ _).mpr fun x hx => ?_
  rw [List.eq_of_mem_replicate hx]
  exact Nat.two_pow_pos _

theorem frameActive_replicate_zero (s : State) (n : Nat) : frameActive s (List.replicate n 0) = false := by
  rw [frameActive, isSilence_replicate_zero, classify_silence]

/-- The state machine's decision on an all-zero frame is that on an inactive one of its duration. -/
theorem SilentInput.frameDecision_eq {s : State} {n fs : Nat} (h : SilentInput s n fs) :
    frameDecision s fs (s.smpValues n) = decideDtx specNum false s.dtx.stat.inDtx s.dtx.durQ1.toNat
      (framePeak s (List.replicate n 0)) (2 * n / fs) := by
  rw [smpValues_eq_replicate h.zero, frameDecision_on h.dtxEn, frameActive_replicate_zero, List.length_replicate,
    frameDurQ1]

/-- One pending `DTX.DECIDE` on silence: the input stays, and the state machine's decision stands in the DTX record. -/
theorem SilentInput.step_next {s : State} {n fs : Nat} {rest : List HostAccess} (h : SilentInput s n fs)
    (hp : s.pending = .write 0x040 4 0x20 :: rest) :
    ∃ t, step s = .next t ∧ SilentInput t n fs ∧ t.pending = rest ∧
      t.dtx.durQ1 = BitVec.ofNat 32 (frameDecision s fs (s.smpValues n)).dur ∧
      t.dtx.stat.inDtx = (frameDecision s fs (s.smpValues n)).suppress := by
  have hdecode : decode 0x20 = .ok .dtxDecide := by decide
  obtain ⟨hstep, -⟩ := stepRunsTheDecodedCommand.1 s _ rest _ hp hdecode
  have hadm : FrameAdmitted { s with pending := rest, port := .written } n fs := { h.admitted with }
  rw [exec_dtxDecide, dtxDecide_of_admitted hadm, finish_ok, decideFrame_eq] at hstep
  exact ⟨_, hstep, ⟨h.dtxEn, { h.admitted with }, h.zero⟩, rfl, rfl, rfl⟩

/-- After `j` decisions on silence of duration `d`, within 600 ms (R173): the duration counts them. -/
structure SilentFor (s : State) (n fs j : Nat) : Prop where
  input : SilentInput s n fs
  dur : s.dtx.durQ1.toNat = j * (2 * n / fs)
  inDtx : s.dtx.stat.inDtx = true ↔ 400 < j * (2 * n / fs)

theorem SilentFor.dur_add {s : State} {n fs j : Nat} (h : SilentFor s n fs j) :
    s.dtx.durQ1.toNat + 2 * n / fs = (j + 1) * (2 * n / fs) := by
  rw [h.dur]
  exact (Nat.succ_mul j _).symm

/-- One more decision within 600 ms. -/
theorem SilentFor.step_next {s : State} {n fs j : Nat} {rest : List HostAccess} (h : SilentFor s n fs j)
    (hmax : (j + 1) * (2 * n / fs) ≤ 1200) (hp : s.pending = .write 0x040 4 0x20 :: rest) :
    ∃ t, step s = .next t ∧ SilentFor t n fs (j + 1) ∧ t.pending = rest := by
  obtain ⟨t, hstep, hinput, hpend, hdur, hin⟩ := h.input.step_next hp
  rw [h.input.frameDecision_eq, decideDtx_inactive (h.dur_add.trans_le hmax), h.dur_add] at hdur hin
  refine ⟨t, hstep, ⟨hinput, ?_, ?_⟩, hpend⟩
  · rw [hdur, BitVec.toNat_ofNat, Nat.mod_eq_of_lt (hmax.trans_lt (by decide))]
  · rw [hin, decide_eq_true_iff]

/-- The first decision past 600 ms leaves the suppression, with the duration at the threshold. -/
theorem SilentFor.step_overflow {s : State} {n fs j : Nat} {rest : List HostAccess} (h : SilentFor s n fs j)
    (hover : 1200 < (j + 1) * (2 * n / fs)) (hp : s.pending = .write 0x040 4 0x20 :: rest) :
    ∃ t, step s = .next t ∧ t.dtx.durQ1.toNat = 400 ∧ t.dtx.stat.inDtx = false := by
  obtain ⟨t, hstep, -, -, hdur, hin⟩ := h.input.step_next hp
  rw [h.input.frameDecision_eq, decideDtx_overflow (hover.trans_eq h.dur_add.symm)] at hdur hin
  exact ⟨t, hstep, congrArg BitVec.toNat hdur, hin⟩

/-- `k` more decisions within 600 ms. -/
theorem SilentFor.run_next {s : State} {n fs j k : Nat} {rest : List HostAccess} (h : SilentFor s n fs j)
    (hmax : (j + k) * (2 * n / fs) ≤ 1200) (hp : s.pending = List.replicate k (.write 0x040 4 0x20) ++ rest) :
    ∃ t, Sys2Proof.core.run k s = .next t ∧ SilentFor t n fs (j + k) ∧ t.pending = rest := by
  induction k generalizing s j with
  | zero => exact ⟨s, rfl, h, hp⟩
  | succ k ih =>
    have hfirst : (j + 1) * (2 * n / fs) ≤ 1200 := (Nat.mul_le_mul_right _ (by omega)).trans hmax
    rw [List.replicate_succ, List.cons_append] at hp
    obtain ⟨u, hstep, hu, hpu⟩ := h.step_next hfirst hp
    rw [Nat.add_comm k 1, ← Nat.add_assoc] at hmax ⊢
    obtain ⟨t, hrun, ht, hpt⟩ := ih hu hmax hpu
    rw [Nat.add_comm 1 k]
    exact ⟨t, (run_succ_of_step (M := Sys2Proof.core) hstep k).trans hrun, ht, hpt⟩

/-- A run that answers a next state goes on from there. -/
theorem run_add_of_run {M : Host.Core} {k : Nat} {s t : M.State} (h : M.run k s = .next t) (m : Nat) :
    M.run (k + m) s = M.run m t := by
  induction k generalizing s with
  | zero =>
    cases h
    rw [Nat.zero_add]
  | succ k ih =>
    rw [Host.Core.run] at h
    split at h
    · next u hu => rw [Nat.succ_add, run_succ_of_step hu, ih h]
    · cases h
    · cases h

/-- Settles O37: silence counts the decisions up to the `k`-th (`SilentFor.run_next`, from none made), and one more past
600 ms overflows. -/
theorem continuousSilenceEntersAndLeavesSuppression : Obligations.ContinuousSilenceEntersAndLeavesSuppression := by
  rintro s k n fs d hon hdur hin hn hfs hrate hpos hmax hmul hwin hzero rfl hpend hlimit
  have hstart : SilentFor s n fs 0 :=
    { input := ⟨hon, ⟨hn, hfs, hrate, hpos, hmax, hmul, hwin⟩, hzero⟩
      dur := by rw [hdur, Nat.zero_mul]; rfl
      inDtx := by simp [hin] }
  rw [List.replicate_succ'] at hpend
  obtain ⟨t, hrun, ht, hlast⟩ := hstart.run_next (by rwa [Nat.zero_add]) hpend
  rw [Nat.zero_add] at ht
  refine ⟨⟨t, hrun, ht.dur, ht.inDtx⟩, fun hover => ?_⟩
  obtain ⟨u, hstep, hu⟩ := ht.step_overflow hover hlast
  exact ⟨u, (run_add_of_run hrun 1).trans (run_succ_of_step (M := Sys2Proof.core) hstep 0), hu⟩

end Sys2Proof.Machine
end

section
/-! PROOFS. Family 43_fec.md: the redundancy decision (R181), what `FEC.RECORD` checks and retains (R182), and the
redundancy bitrate (R183). -/

namespace Sys2Proof.Machine

open Sys2Proof.Config

/-! ### The redundancy decision and bitrate -/

theorem flagBit_zero (b : Bool) : flagBit b 0 = if b then 1 else 0 := rfl

/-- The three conditions of R181. -/
theorem redundancyWanted_iff (s : State) : redundancyWanted s = true ↔
    s.cfg.flags.fecEn = true ∧ s.fec.havePrev = true ∧ 1 ≤ s.cfg.lossPct.toNat := by
  rw [redundancyWanted, Bool.and_eq_true, Bool.and_eq_true, decide_eq_true_iff, lossMinPct_eq, and_assoc]

/-- Settles O38: the body leaves the state, and its results are the flags of `redundancyWanted_iff` and `PREV_ACTIVE`. -/
theorem fecQueryAnswersTheThreeConditions : Obligations.FecQueryAnswersTheThreeConditions := by
  intro s
  have hbody : exec .fecQuery s =
      .next (s.complete 0x30 (flagBit (redundancyWanted s) 0) (flagBit s.fec.prevActive 0)) := exec_eq_finish .fecQuery s
  simp only [hbody, flagBit_zero, redundancyWanted_iff]

/-- The rate of a 32 bit operand fits a register: three fifths of it are no more than it (R183). -/
theorem redundancyRate_lt (p : Word) : redundancyRate p.toNat < 2 ^ 32 := by
  have hp : p.toNat < 2 ^ 32 := p.isLt
  rw [redundancyRate_eq]
  omega

/-- Settles O39: the register holds the whole of `redundancyRate` (`redundancyRate_lt`). -/
theorem fecRateIsThreeFifthsWithAFloor : Obligations.FecRateIsThreeFifthsWithAFloor := by
  intro s
  refine ⟨BitVec.ofNat _ (redundancyRate s.io.arg0.toNat), exec_eq_finish .fecRate s, ?_⟩
  rw [BitVec.toNat_ofNat, Nat.mod_eq_of_lt (redundancyRate_lt s.io.arg0), redundancyRate_eq]

/-! ### The checks of FEC.RECORD -/

theorem encode_fecRecord (wasActive : Bool) : encode (.fecRecord wasActive) = if wasActive then 0x131 else 0x31 := by
  cases wasActive <;> rfl

theorem exec_fecRecord (wasActive : Bool) (s : State) : exec (.fecRecord wasActive) s =
    .next (s.finish (if wasActive then 0x131 else 0x31) (fecRecord wasActive s)) := by
  rw [← encode_fecRecord]
  exact exec_eq_finish (.fecRecord wasActive) s

/-- `FEC_STAT` as a number (R41). -/
theorem fecRegs_statWord_eq (f : FecRegs) :
    f.statWord = BitVec.ofNat 32 (f.havePrev.toNat + 2 * f.prevActive.toNat) := by
  rw [← toNat_fecRegs_statWord, BitVec.ofNat_toNat, BitVec.setWidth_eq]

theorem recordFrame_fec (s : State) (len : Word) (wasActive : Bool) :
    (recordFrame s len wasActive).fec = recordedFec s len wasActive := by
  rw [recordFrame_eq]

/-- The body of `FEC.RECORD` as one chain of cases, in the order of R182. -/
theorem fecRecord_eq (wasActive : Bool) (s : State) : fecRecord wasActive s =
    if s.io.arg0.toNat = 0 ∨ 5760 < s.io.arg0.toNat ∨ s.col.smpCount.toNat < s.io.arg0.toNat then
      .error (.badOperand 0)
    else if s.dtx.stat.decisionValid = false ∨ s.dtx.stat.lastSuppress = true then
      .error (.sequenceError s.dtx.stat.word)
    else .ok ⟨recordFrame s s.io.arg0 wasActive,
      BitVec.ofNat 32 (s.cfg.flags.fecEn.toNat + 2 * wasActive.toNat), s.fec.frameCount + 1⟩ := by
  simp only [fecRecord, raiseIf_bind, smpCap_eq, gt_iff_lt, Bool.not_eq_true, fecRegs_statWord_eq, recordFrame_fec,
    recordedFec]

/-- Settles O41: the two errors are the branches of `fecRecord_eq`, and `DTX_STAT` reads at its address. -/
theorem fecRecordChecksOperandThenSequence : Obligations.FecRecordChecksOperandThenSequence := by
  rintro s wasActive w rfl
  refine ⟨fun hlen => ?badLength, fun hpos hcap hwin horder => ?badOrder⟩
  case badLength =>
    have hbody : fecRecord wasActive s = .error (.badOperand 0) := by rw [fecRecord_eq, if_pos hlen]
    rw [exec_fecRecord, hbody, finish_error]
  case badOrder =>
    have hread : hostRead s 0x1A4 = s.dtx.stat.word := hostRead_addr s .dtxStat
    have hbody : fecRecord wasActive s = .error (.sequenceError s.dtx.stat.word) := by
      rw [fecRecord_eq, if_neg (by omega), if_pos horder]
    rw [exec_fecRecord, hbody, finish_error, hread]

/-! ### The retained frame -/

/-- A stored run of samples reads back, sample by sample (R64). -/
theorem sampleAt_storeSamples_index (s : State) (a : Nat) {vs : List (BitVec 24)} {i : Nat} (hi : i < vs.length) :
    State.sampleAt { s with mem := Memory.storeSamples s.mem a vs } (a + 4 * i) = vs[i] := by
  have hbyte {j : Nat} (hj : j < 3) :
      State.byteAt { s with mem := Memory.storeSamples s.mem a vs } (a + 4 * i + j) = vs[i].extractLsb' (8 * j) 8 := by
    rw [State.byteAt, byte?_storeSamples_inside s.mem a vs i j hi hj, List.getElem?_eq_getElem hi]
    rfl
  rw [State.sampleAt, hbyte (j := 2) (by decide), hbyte (j := 1) (by decide),
    show State.byteAt _ (a + 4 * i) = _ from hbyte (j := 0) (by decide)]
  exact append_sampleBytes vs[i]

/-- `FECBUF[i] = SMP[i]` after a frame is retained (R182). -/
theorem sampleAt_retainFrame (s : State) {n i : Nat} (hi : i < n) :
    (s.retainFrame n).sampleAt (fecBase + 4 * i) = s.sampleAt (smpBase + 4 * i) := by
  have hlen : i < (s.samplesFrom smpBase n).length := by rwa [State.samplesFrom, List.length_map, List.length_range]
  rw [State.retainFrame, sampleAt_storeSamples_index s fecBase hlen]
  simp only [State.samplesFrom, List.getElem_map, List.getElem_range]

section RecordFrame
variable {s : State} (len : Word) (wasActive : Bool) (a : Nat)

/-- `FEC.RECORD` leaves in the buffers what the retained frame leaves there, with FEC enabled, and all as it was, with
FEC disabled (R182). -/
theorem byteAt_recordFrame :
    (recordFrame s len wasActive).byteAt a =
      (if s.cfg.flags.fecEn then s.retainFrame len.toNat else s).byteAt a := rfl

theorem byteAt_recordFrame_enabled (h : s.cfg.flags.fecEn = true) :
    (recordFrame s len wasActive).byteAt a = (s.retainFrame len.toNat).byteAt a := by
  rw [byteAt_recordFrame, if_pos h]

theorem byteAt_recordFrame_disabled (h : s.cfg.flags.fecEn = false) :
    (recordFrame s len wasActive).byteAt a = s.byteAt a := by
  rw [byteAt_recordFrame, if_neg (by rw [h]; exact Bool.false_ne_true)]

theorem sampleAt_recordFrame_enabled (h : s.cfg.flags.fecEn = true) :
    (recordFrame s len wasActive).sampleAt a = (s.retainFrame len.toNat).sampleAt a := by
  simp only [State.sampleAt, byteAt_recordFrame_enabled _ _ _ h]

end RecordFrame

/-- Settles O40: the checks of `fecRecord_eq` pass, `recordFrame_eq` gives the whole state, and the buffers are those of
the retained frame. -/
theorem fecRecordRetainsTheFrame : Obligations.FecRecordRetainsTheFrame := by
  rintro s wasActive len rfl hpos hcap hwin hvalid hemit
  have hbody : fecRecord wasActive s = .ok ⟨recordFrame s s.io.arg0 wasActive,
      BitVec.ofNat 32 (s.cfg.flags.fecEn.toNat + 2 * wasActive.toNat), s.fec.frameCount + 1⟩ := by
    rw [fecRecord_eq, if_neg (by omega), if_neg (by simp [hvalid, hemit])]
  refine ⟨_, by rw [exec_fecRecord, hbody, finish_ok], ?whole, fun hon i hi => ?retained, fun hon a ha => ?outside,
    fun hoff a => ?disabled⟩
  case whole => rw [complete_mem, recordFrame_eq, recordedFec]
  case retained => exact (sampleAt_recordFrame_enabled _ wasActive _ hon).trans (sampleAt_retainFrame s hi)
  case outside => exact (byteAt_recordFrame_enabled _ wasActive a hon).trans (byteAt_retainFrame_outside s _ a ha)
  case disabled => exact byteAt_recordFrame_disabled _ wasActive a hoff

end Sys2Proof.Machine
end

section
/-! PROOFS. Family 44_bitrate.md, the padding construction (R197 to R200): the re-framed packet parses to the frames of the
packet it was made from. -/

namespace Sys2Proof.Machine

open Sys2Proof.Config

/-! ### What a parse says about the frame lengths -/

theorem length_eq_of_readLens {k : Nat} {bs : List Byte} {lens : List Nat} {used : Nat}
    (h : readLens k bs = some (lens, used)) : lens.length = k := by
  induction k generalizing bs lens used with
  | zero =>
    cases h
    rfl
  | succ k ih =>
    cases hl : decLen bs with
    | none =>
      rw [readLens_succ_eq_none hl] at h
      cases h
    | some first =>
      obtain ⟨⟨lens', used'⟩, hrest, heq⟩ := Option.map_eq_some_iff.mp (readLens_succ hl ▸ h)
      cases heq
      rw [List.length_cons, ih hrest]

/-- A number of frames that the six bits of a count byte hold (R91). -/
abbrev Parsed.Countable (r : Parsed) : Prop := r.lens ≠ [] ∧ r.lens.length < 64

theorem countable_of_parseCode1 {toc : Byte} {n : Nat} {r : Parsed} (h : parseCode1 toc n = some r) : r.Countable := by
  unfold parseCode1 at h
  split_ifs at h
  cases h
  exact ⟨List.cons_ne_nil _ _, (by decide : 2 < 64)⟩

theorem countable_of_parseCode2 {toc : Byte} {p : List Byte} {r : Parsed} (h : parseCode2 toc p = some r) :
    r.Countable := by
  unfold parseCode2 at h
  split at h
  · cases h
  · split_ifs at h
    cases h
    exact ⟨List.cons_ne_nil _ _, (by decide : 2 < 64)⟩

theorem countable_of_parseCode3Frames {toc : Byte} {p : List Byte} {v : Bool} {m i stop : Nat} {r : Parsed}
    (hpos : m ≠ 0) (hm : m < 64) (h : parseCode3Frames toc p v m i stop = some r) : r.Countable := by
  have hlen : r.lens.length = m := by
    unfold parseCode3Frames at h
    split_ifs at h with horder hv hmod
    · split at h
      · cases h
      · next lens used hl =>
        split_ifs at h
        cases h
        rw [List.length_append, List.length_singleton, length_eq_of_readLens hl]
        omega
    · cases h
      exact List.length_replicate
  exact ⟨List.ne_nil_of_length_pos (by omega), by omega⟩

theorem countable_of_parseCode3 {toc : Byte} {p : List Byte} {r : Parsed} (h : parseCode3 toc p = some r) :
    r.Countable := by
  unfold parseCode3 at h
  split at h
  · next toc' cb body =>
    have hcount : (cb.extractLsb' 0 6).toNat < 64 := (cb.extractLsb' 0 6).isLt
    simp only at h
    split_ifs at h with hm hpad
    · split at h
      · cases h
      · split_ifs at h
        exact countable_of_parseCode3Frames hm hcount h
    · exact countable_of_parseCode3Frames hm hcount h
  · cases h

theorem limit_of_checked {r r' : Parsed} (h : r.checked = some r') : ∀ len ∈ r'.lens, len ≤ 1275 := by
  have heq := eq_of_checked h
  rw [checked_eq] at h
  split_ifs at h with hlimit
  exact heq ▸ hlimit

/-- Whatever parses has from 1 to 63 frames, none longer than 1275 bytes (R95, R197). -/
theorem lens_of_parsePacket {p : List Byte} {r : Parsed} (h : parsePacket p = some r) :
    r.Countable ∧ ∀ len ∈ r.lens, len ≤ 1275 := by
  have hbind {o : Option Parsed} (ho : o.bind Parsed.checked = some r) :
      o = some r ∧ ∀ len ∈ r.lens, len ≤ 1275 := by
    obtain ⟨r', rfl, hr⟩ := Option.bind_eq_some_iff.mp ho
    exact ⟨by rw [eq_of_checked hr], limit_of_checked hr⟩
  unfold parsePacket at h
  split at h
  · cases h
  · next toc rest =>
    split at h
    · exact ⟨eq_of_checked h ▸ ⟨List.cons_ne_nil _ _, (by decide : 1 < 64)⟩, limit_of_checked h⟩
    · obtain ⟨hcode, hlimit⟩ := hbind h
      exact ⟨countable_of_parseCode1 hcode, hlimit⟩
    · obtain ⟨hcode, hlimit⟩ := hbind h
      exact ⟨countable_of_parseCode2 hcode, hlimit⟩
    · obtain ⟨hcode, hlimit⟩ := hbind h
      exact ⟨countable_of_parseCode3 hcode, hlimit⟩

/-- The frames of a parsed packet have the parsed lengths: they lie inside the packet. -/
theorem map_length_framesAt {p : List Byte} {off : Nat} {lens : List Nat} (h : off + lens.sum ≤ p.length) :
    (framesAt p off lens).map List.length = lens := by
  induction lens generalizing off with
  | nil => rfl
  | cons len lens ih =>
    rw [List.sum_cons] at h
    rw [framesAt, List.map_cons, ih (by omega), List.length_take, List.length_drop, Nat.min_eq_left (by omega)]

/-! ### The fields of a re-framed packet, read back -/

/-- The padding field of the overhead `extra`, announced by the count byte, reads as the padding data (R91 to R93, R200). -/
theorem paddingRead_padField {m : Nat} (v : Bool) (hm : m < 64) (extra : Nat) (rest : List Byte) :
    PaddingRead (countByte v (decide (extra ≥ 1)) m) (padField extra ++ rest) (padData extra).length
      (2 + (padField extra).length) := by
  obtain rfl | hpos := Nat.eq_zero_or_pos extra
  · exact paddingRead_countByte_false v hm _
  · have hpadded : decide (extra ≥ 1) = true := decide_eq_true hpos
    exact .inr ⟨by rw [hpadded, countByte_padded v true hm], _, readPadLen_padField_append hpos rest, rfl⟩

theorem eq_replicate_of_needsLens_eq_false {lens : List Nat} (h : needsLens lens = false) :
    lens = List.replicate lens.length (lens.headD 0) :=
  List.eq_replicate_of_mem (needsLens_eq_false.mp h)

/-- The length fields and the frames that follow them parse to the lengths, in either form: none stored when all are
equal, else all but the last (R198). -/
theorem parseCode3Frames_lenFields (toc : Byte) (before after : List Byte) {lens : List Nat} {body : List Byte}
    (hpos : lens ≠ []) (hlimit : ∀ len ∈ lens, len ≤ 1275) (hbody : body.length = lens.sum) :
    parseCode3Frames toc (before ++ (lenFields lens ++ body) ++ after) (needsLens lens) lens.length before.length
      (before ++ (lenFields lens ++ body)).length = some ⟨toc, lens, before.length + (lenFields lens).length⟩ := by
  have hstop : (before ++ (lenFields lens ++ body)).length = before.length + (lenFields lens).length + lens.sum := by
    rw [List.length_append, List.length_append, hbody, Nat.add_assoc]
  cases hneeds : needsLens lens with
  | false =>
    have hnone : lenFields lens = [] := by rw [lenFields, hneeds]; rfl
    have heq := eq_replicate_of_needsLens_eq_false hneeds
    have hsum : lens.sum = lens.length * lens.headD 0 := by
      rw [heq, List.sum_replicate, smul_eq_mul, ← heq]
    have hcount : 0 < lens.length := List.length_pos_of_ne_nil hpos
    rw [parseCode3Frames_equal (by omega), hstop, hnone, List.length_nil, Nat.add_zero, Nat.add_sub_cancel_left, hsum,
      Nat.mul_mod_right, if_pos rfl, Nat.mul_div_cancel_left _ hcount, ← heq]
  | true =>
    obtain ⟨init, last, rfl⟩ : ∃ init last, lens = init ++ [last] :=
      ⟨_, _, (List.dropLast_append_getLast hpos).symm⟩
    have hfields : lenFields (init ++ [last]) = init.flatMap encLen := by
      rw [lenFields, hneeds, if_pos rfl, List.dropLast_concat]
    have hinit : ∀ len ∈ init, len ≤ 1275 := fun len hmem => hlimit len (List.mem_append_left _ hmem)
    have hread : readLens ((init ++ [last]).length - 1) (((before ++ (lenFields (init ++ [last]) ++ body) ++ after).take
        (before ++ (lenFields (init ++ [last]) ++ body)).length).drop before.length) =
        some (init, (lenFields (init ++ [last])).length) := by
      rw [List.take_left, List.drop_left, List.length_append, List.length_singleton, Nat.add_sub_cancel, hfields,
        readLens_flatMap_encLen hinit, length_flatMap_encLen]
    rw [List.sum_append, List.sum_singleton] at hstop
    have hlast : (before ++ (lenFields (init ++ [last]) ++ body)).length -
        (before.length + (lenFields (init ++ [last])).length + init.sum) = last := by
      omega
    rw [parseCode3Frames_stored (by omega) hread, if_pos (by omega), hlast]

/-! ### The re-framed packet -/

/-- The bytes of a re-framed packet before its length fields: TOC, count byte and padding length (R200). -/
def reframeHead (r : Parsed) (t : Nat) : List Byte :=
  (r.toc ||| 3) :: countByte (needsLens r.lens) (decide (t - baseSize r.lens ≥ 1)) r.lens.length ::
    padField (t - baseSize r.lens)

theorem length_reframeHead (r : Parsed) (t : Nat) :
    (reframeHead r t).length = 2 + (padField (t - baseSize r.lens)).length := Nat.add_comm _ 2

theorem reframe_eq_append (r : Parsed) (p : List Byte) (t : Nat) :
    reframe r p t = reframeHead r t ++ (lenFields r.lens ++ (r.frames p).flatten) ++ padData (t - baseSize r.lens) := by
  simp only [reframe, reframeHead, List.cons_append, List.append_assoc]

theorem parsePacket_reframe {p : List Byte} {r : Parsed} (t : Nat) (h : parsePacket p = some r) :
    parsePacket (reframe r p t) =
      some ⟨r.toc ||| 3, r.lens, (reframeHead r t).length + (lenFields r.lens).length⟩ := by
  obtain ⟨⟨hpos, hcount⟩, hlimit⟩ := lens_of_parsePacket h
  have hbody : (r.frames p).flatten.length = r.lens.sum := length_flatten_framesAt (fits_of_parsePacket h).frames
  have hread := paddingRead_padField (needsLens r.lens) hcount (t - baseSize r.lens)
    (lenFields r.lens ++ ((r.frames p).flatten ++ padData (t - baseSize r.lens)))
  have hframes := parseCode3Frames_lenFields (r.toc ||| 3) (reframeHead r t) (padData (t - baseSize r.lens)) hpos hlimit
    hbody
  have hcode3 : parsePacket (reframe r p t) = (parseCode3Frames (r.toc ||| 3) (reframe r p t) (needsLens r.lens)
      r.lens.length (reframeHead r t).length
      (reframeHead r t ++ (lenFields r.lens ++ (r.frames p).flatten)).length).bind Parsed.checked := by
    rw [length_reframeHead, reframe, List.append_assoc, List.append_assoc]
    refine parsePacket_countByte _ _ r.toc (mt List.eq_nil_of_length_eq_zero hpos) hcount hread ?_
    simp only [reframeHead, List.cons_append, List.length_cons, List.length_append]
    omega
  rw [hcode3, reframe_eq_append, hframes, Option.bind_some, checked_eq, if_pos hlimit]

theorem frames_reframe {p : List Byte} {r : Parsed} (t : Nat) (h : parsePacket p = some r) :
    framesAt (reframe r p t) ((reframeHead r t).length + (lenFields r.lens).length) r.lens = r.frames p := by
  have hlens : (r.frames p).map List.length = r.lens := map_length_framesAt (fits_of_parsePacket h).frames
  have hcut := framesAt_append_flatten (reframeHead r t ++ lenFields r.lens) (padData (t - baseSize r.lens)) (r.frames p)
  rw [hlens, List.length_append] at hcut
  rw [reframe_eq_append, ← List.append_assoc, List.append_assoc (reframeHead r t ++ _), hcut]

/-- Settles O45: the re-framed packet parses to the lengths it was made of (`parsePacket_reframe`), at which it is cut into
the old frames (`frames_reframe`). -/
theorem reframedPacketParsesToTheSameFrames : Obligations.ReframedPacketParsesToTheSameFrames := by
  intro p r t h _
  exact ⟨_, parsePacket_reframe t h, rfl, frames_reframe t h⟩

end Sys2Proof.Machine
end

section
/-! PROOFS. Family 44_bitrate.md, the bitrate controller: the target size (R190), `BRC.CONFORM` (R192 to R195, R201) and
`PKT.PAD` (R196, R201), each as what its body answers in each case. -/

namespace Sys2Proof.Machine

open Sys2Proof.Config

/-! ### The target size -/

theorem targetBytes_lt (bitrate durQ1 : Nat) : targetBytes bitrate durQ1 < 2 ^ 32 :=
  Nat.lt_of_le_sub_one (by decide) (Nat.min_le_right _ _)

/-- Settles O47: the register holds the whole of `targetBytes` (`targetBytes_lt`). -/
theorem brcTargetIsTheExactQuotient : Obligations.BrcTargetIsTheExactQuotient := by
  intro s
  refine ⟨BitVec.ofNat _ (targetBytes s.io.arg0.toNat s.io.arg1.toNat), exec_eq_finish .brcTarget s, ?_⟩
  rw [BitVec.toNat_ofNat, Nat.mod_eq_of_lt (targetBytes_lt _ _), targetBytes]

/-! ### A packet stored and read back -/

theorem pktBytes_complete (s : State) (w r0 r1 : Word) (n : Nat) : (s.complete w r0 r1).pktBytes n = s.pktBytes n := rfl

theorem pktBytes_storePacket (s : State) {q : List Byte} {n : Nat} (len : Nat) (h : q.length = n) :
    (s.storePacket q len).pktBytes n = q := by
  subst h
  refine List.ext_getElem (length_pktBytes _ _) fun k hk hq => ?_
  simp only [State.pktBytes, State.bytesFrom, List.getElem_map, List.getElem_range]
  rw [byteAt_storePacket, if_pos (by omega), Nat.add_sub_cancel_left, List.getD_eq_getElem _ _ hq]

/-- What a padding command leaves when it re-frames the packet to `goal` bytes, completed with the word `w` (R200, R203). -/
def paddedState (s : State) (r : Parsed) (goal : Nat) (w : Word) : State :=
  (s.storePacket (reframe r (s.pktBytes s.col.pktLen.toNat) goal) goal).complete w (BitVec.ofNat 32 goal) flagPadded

section PaddedState
variable {s : State} {r : Parsed} {goal : Nat} (w : Word)

theorem paddedState_eq : paddedState s r goal w =
    ({ s with mem := (paddedState s r goal w).mem, col := { s.col with pktLen := BitVec.ofNat 32 goal } } :
      State).complete w (BitVec.ofNat 32 goal) 1 := rfl

variable (hr : parsePacket (s.pktBytes s.col.pktLen.toNat) = some r) (hgoal : s.col.pktLen.toNat < goal)
include hr hgoal

theorem length_reframe_pktBytes : (reframe r (s.pktBytes s.col.pktLen.toNat) goal).length = goal :=
  length_reframe hr (by rwa [length_pktBytes])

theorem pktBytes_paddedState :
    (paddedState s r goal w).pktBytes goal = reframe r (s.pktBytes s.col.pktLen.toNat) goal := by
  rw [paddedState, pktBytes_complete, pktBytes_storePacket _ _ (length_reframe_pktBytes hr hgoal)]

theorem byteAt_paddedState_outside {a : Nat} (ha : a < 0x1000 ∨ 0x1000 + goal ≤ a) :
    (paddedState s r goal w).byteAt a = s.byteAt a := by
  rw [paddedState, byteAt_complete, byteAt_storePacket, length_reframe_pktBytes hr hgoal,
    if_neg (by rw [pktBase]; omega)]

end PaddedState

/-! ### Completions of a body -/

/-- A command without error code succeeded: no error has code 0 (R251). -/
theorem body_ok_of_err_eq_zero {i : Instr} {s t : State} (h : exec i s = .next t) (herr : t.io.status.err = 0) :
    ∃ d, commandBody specNum i s = .ok d ∧ t = d.state.complete (encode i) d.res0 d.res1 := by
  obtain hok | ⟨e, -, rfl⟩ := exec_cases h
  · exact hok
  · exact absurd herr (code_ne_zero e)

section Completions
variable {i : Instr} {s : State}

theorem exec_of_body_ok {d : Done} (h : commandBody specNum i s = .ok d) :
    exec i s = .next (d.state.complete (encode i) d.res0 d.res1) := by
  rw [exec_eq_finish, h, finish_ok]

theorem exec_of_body_error {e : CmdError} (h : commandBody specNum i s = .error e) :
    exec i s = .next (s.takeError (encode i) e) := by
  rw [exec_eq_finish, h, finish_error]

end Completions

/-! ### The goal and the tolerance flag -/

theorem conformGoal_vbr (n t : Nat) : conformGoal .vbr n t = n := rfl

theorem conformGoal_cbr (n t : Nat) : conformGoal .cbr n t = max n t := by
  simp only [conformGoal]
  split <;> omega

theorem conformGoal_cvbr (n t : Nat) : conformGoal .cvbr n t = max n (17 * t / 20) := by
  simp only [conformGoal, cvbrLo_eq]
  split <;> omega

theorem le_conformGoal (mode : RateMode) (n t : Nat) : n ≤ conformGoal mode n t := by
  cases mode with
  | vbr => exact Nat.le_refl n
  | cbr => exact conformGoal_cbr n t ▸ Nat.le_max_left _ _
  | cvbr => exact conformGoal_cvbr n t ▸ Nat.le_max_left _ _

theorem conformOver_eq (mode : RateMode) (n t : Nat) :
    conformOver mode n t = if mode = .cvbr ∧ (23 * t + 19) / 20 < n then 4 else 0 := by
  rw [conformOver, cvbrHi_eq]
  rfl

/-- A packet that is padded is not over tolerance: the lower bound is below the upper (R193). -/
theorem conformOver_of_lt_goal {mode : RateMode} {n t : Nat} (h : n < conformGoal mode n t) : conformOver mode n t = 0 := by
  rw [conformOver_eq, if_neg]
  rintro ⟨rfl, hover⟩
  rw [conformGoal_cvbr] at h
  omega

/-! ### The body of BRC.CONFORM -/

/-- The goal of `BRC.CONFORM` on a state (R192). -/
abbrev goalOf (s : State) : Nat := conformGoal s.cfg.rateMode s.col.pktLen.toNat s.io.arg0.toNat

/-- The tolerance flag of `BRC.CONFORM` on a state (R203). -/
abbrev overOf (s : State) : Word := conformOver s.cfg.rateMode s.col.pktLen.toNat s.io.arg0.toNat

/-- What `BRC.CONFORM` answers for a packet below its goal (R192): `brcConform_eq` says where it stands. -/
def conformShort (s : State) : CmdResult :=
  match parsePacket (s.pktBytes s.col.pktLen.toNat) with
  | none =>
    if s.cfg.rateMode = .cbr then .error (.rateViolation s.col.pktLen)
    else .ok ⟨s, s.col.pktLen, overOf s ||| flagNotExact ||| flagUnderTol⟩
  | some r =>
    .ok ⟨s.storePacket (reframe r (s.pktBytes s.col.pktLen.toNat) (goalOf s)) (goalOf s), BitVec.ofNat 32 (goalOf s),
      overOf s ||| flagPadded⟩

/-- The body of `BRC.CONFORM` as one chain of cases, in the order of R192. -/
theorem brcConform_eq (s : State) : brcConform s =
    if s.col.subencStatus ≠ 0 then .error (.subEncoderFailure s.col.subencStatus)
    else if 4096 < s.io.arg0.toNat then .error (.badOperand 0)
    else if s.col.pktLen.toNat = 0 then .error (.badOperand 1)
    else if s.cfg.rateMode = .cbr ∧ s.io.arg0.toNat < s.col.pktLen.toNat then .error (.rateViolation s.col.pktLen)
    else if s.col.outCap.toNat < goalOf s then .error (.bufferTooSmall (BitVec.ofNat 32 (goalOf s)))
    else if s.col.pktLen.toNat < goalOf s then conformShort s
    else .ok ⟨s, s.col.pktLen, overOf s⟩ := by
  simp only [brcConform, raiseIf_bind]
  rfl

theorem conformShort_malformed_cbr {s : State} (hp : parsePacket (s.pktBytes s.col.pktLen.toNat) = none)
    (hmode : s.cfg.rateMode = .cbr) : conformShort s = .error (.rateViolation s.col.pktLen) := by
  simp only [conformShort, hp, if_pos hmode]

theorem conformShort_malformed {s : State} (hp : parsePacket (s.pktBytes s.col.pktLen.toNat) = none)
    (hmode : s.cfg.rateMode ≠ .cbr) (hshort : s.col.pktLen.toNat < goalOf s) :
    conformShort s = .ok ⟨s, s.col.pktLen, 10⟩ := by
  simp only [conformShort, hp, if_neg hmode, overOf, conformOver_of_lt_goal hshort]
  rfl

theorem conformShort_padded {s : State} {r : Parsed} (hp : parsePacket (s.pktBytes s.col.pktLen.toNat) = some r)
    (hshort : s.col.pktLen.toNat < goalOf s) :
    conformShort s = .ok ⟨s.storePacket (reframe r (s.pktBytes s.col.pktLen.toNat) (goalOf s)) (goalOf s),
      BitVec.ofNat 32 (goalOf s), flagPadded⟩ := by
  simp only [conformShort, hp, overOf, conformOver_of_lt_goal hshort]
  rfl

/-! ### BRC.CONFORM, case by case -/

theorem ofNat_toNat_word (w : Word) : BitVec.ofNat 32 w.toNat = w := (BitVec.ofNat_toNat _ _).trans (BitVec.setWidth_eq _)

theorem toNat_ne_zero {w : Word} (h : w ≠ 0) : w.toNat ≠ 0 := mt (BitVec.eq_of_toNat_eq (y := 0)) h

/-- Settles O48: the first four branches of `brcConform_eq`. -/
theorem brcConformErrorsInOrder : Obligations.BrcConformErrorsInOrder := by
  intro s
  have herror {e : CmdError} (h : brcConform s = .error e) : exec .brcConform s = .next (s.takeError 0x41 e) :=
    exec_of_body_error (i := .brcConform) h
  refine ⟨fun hsub => herror ?status, fun hsub ht => herror ?target, fun hsub ht hn => herror ?empty,
    fun hsub ht hn hcbr hlong => herror ?long⟩
  all_goals rw [brcConform_eq]
  case status => rw [if_pos hsub]
  all_goals rw [if_neg (not_not_intro hsub)]
  case target => rw [if_pos ht]
  all_goals rw [if_neg (Nat.not_lt.mpr ht)]
  case empty =>
    have hlen : s.col.pktLen.toNat = 0 := congrArg BitVec.toNat hn
    rw [if_pos hlen]
  case long => rw [if_neg (toNat_ne_zero hn), if_pos ⟨hcbr, hlong⟩]

/-- What `BRC.CONFORM` checks before its goal (R192). -/
structure ConformAdmits (s : State) : Prop where
  status : s.col.subencStatus = 0
  target : s.io.arg0.toNat ≤ 4096
  nonempty : s.col.pktLen.toNat ≠ 0
  cbr : s.cfg.rateMode = .cbr → s.col.pktLen.toNat ≤ s.io.arg0.toNat

theorem brcConform_of_admits {s : State} (h : ConformAdmits s) : brcConform s =
    if s.col.outCap.toNat < goalOf s then .error (.bufferTooSmall (BitVec.ofNat 32 (goalOf s)))
    else if s.col.pktLen.toNat < goalOf s then conformShort s
    else .ok ⟨s, s.col.pktLen, overOf s⟩ := by
  obtain ⟨hsub, ht, hn, hcbr⟩ := h
  have hlong : ¬(s.cfg.rateMode = .cbr ∧ s.io.arg0.toNat < s.col.pktLen.toNat) := fun hc =>
    Nat.not_lt.mpr (hcbr hc.1) hc.2
  rw [brcConform_eq, if_neg (not_not_intro hsub), if_neg (Nat.not_lt.mpr ht), if_neg hn, if_neg hlong]

/-- Settles O49: in these cases the goal is the packet's own length. -/
theorem brcConformPassesThrough : Obligations.BrcConformPassesThrough := by
  rintro s _ _ rfl rfl hsub ht hn hmode
  have hcbr : s.cfg.rateMode = .cbr → s.col.pktLen.toNat ≤ s.io.arg0.toNat := by
    intro hc
    rw [hc] at hmode
    obtain hvbr | ⟨-, heq⟩ | ⟨hcvbr, -⟩ := hmode
    · cases hvbr
    · exact heq.le
    · cases hcvbr
  have hgoal : goalOf s = s.col.pktLen.toNat := by
    obtain hm | ⟨hm, heq⟩ | ⟨hm, hle⟩ := hmode
    · rw [goalOf, hm, conformGoal_vbr]
    · rw [goalOf, hm, conformGoal_cbr, ← heq, Nat.max_self]
    · rw [goalOf, hm, conformGoal_cvbr, Nat.max_eq_left hle]
  have hbody := brcConform_of_admits ⟨hsub, ht, hn, hcbr⟩
  rw [hgoal] at hbody
  refine ⟨fun hroom => ?fits, fun hroom => ?tooSmall⟩
  case fits =>
    rw [if_neg (Nat.not_lt.mpr hroom), if_neg (Nat.lt_irrefl _)] at hbody
    rw [← conformOver_eq]
    exact exec_of_body_ok (i := .brcConform) hbody
  case tooSmall =>
    rw [if_pos hroom, ofNat_toNat_word] at hbody
    exact exec_of_body_error (i := .brcConform) hbody

/-- Settles O50: the goal is above the packet's length, so the body is `conformShort`. -/
theorem brcConformPadsToTheGoal : Obligations.BrcConformPadsToTheGoal := by
  rintro s _ _ goal rfl rfl hsub ht hn hmode hshort
  have hgoal : goalOf s = goal := by
    obtain ⟨hm, rfl⟩ | ⟨hm, rfl⟩ := hmode
    · rw [goalOf, hm, conformGoal_cbr, Nat.max_eq_right hshort.le]
    · rw [goalOf, hm, conformGoal_cvbr, Nat.max_eq_right hshort.le]
  have hcbr : s.cfg.rateMode = .cbr → s.col.pktLen.toNat ≤ s.io.arg0.toNat := by
    obtain ⟨-, rfl⟩ | ⟨hm, -⟩ := hmode
    · exact fun _ => hshort.le
    · rw [hm]
      exact nofun
  subst hgoal
  have hbody := brcConform_of_admits ⟨hsub, ht, hn, hcbr⟩
  refine ⟨fun hroom => ?tooSmall, fun hroom hp hm => ?malformedCbr, fun hroom hp hm => ?malformedCvbr,
    fun r hroom hp => ?padded⟩
  case tooSmall =>
    rw [if_pos hroom] at hbody
    exact exec_of_body_error (i := .brcConform) hbody
  all_goals rw [if_neg (Nat.not_lt.mpr hroom), if_pos hshort] at hbody
  case malformedCbr => exact exec_of_body_error (i := .brcConform) (hbody.trans (conformShort_malformed_cbr hp hm))
  case malformedCvbr =>
    have hne : s.cfg.rateMode ≠ .cbr := by
      rw [hm]
      exact nofun
    exact exec_of_body_ok (i := .brcConform) (hbody.trans (conformShort_malformed hp hne hshort))
  case padded =>
    exact ⟨paddedState s r (goalOf s) 0x41,
      exec_of_body_ok (i := .brcConform) (hbody.trans (conformShort_padded hp hshort)), paddedState_eq 0x41,
      pktBytes_paddedState 0x41 hp hshort, fun a ha => byteAt_paddedState_outside 0x41 hp hshort ha⟩

/-! ### What a successful BRC.CONFORM leaves -/

theorem admits_of_brcConform_ok {s : State} {d : Done} (h : brcConform s = .ok d) : ConformAdmits s := by
  rw [brcConform_eq] at h
  split_ifs at h with hsub ht hn hlong
  all_goals exact ⟨not_not.mp hsub, Nat.not_lt.mp ht, hn, fun hc => Nat.not_lt.mp fun hl => hlong ⟨hc, hl⟩⟩

/-- The packet is kept, at its goal or short of it outside CBR and flagged; or it has been re-framed to the goal. -/
theorem brcConform_ok_cases {s : State} {d : Done} (h : brcConform s = .ok d) :
    goalOf s ≤ s.col.outCap.toNat ∧
    (d.state = s ∧ d.res0 = s.col.pktLen ∧ (goalOf s = s.col.pktLen.toNat ∨ (s.cfg.rateMode ≠ .cbr ∧ d.res1 = 10)) ∨
      d.state.col.pktLen = BitVec.ofNat 32 (goalOf s) ∧ d.res0 = BitVec.ofNat 32 (goalOf s)) := by
  have hle : s.col.pktLen.toNat ≤ goalOf s := le_conformGoal _ _ _
  rw [brcConform_of_admits (admits_of_brcConform_ok h)] at h
  split_ifs at h with hroom hshort
  all_goals refine ⟨Nat.not_lt.mp hroom, ?_⟩
  · cases hp : parsePacket (s.pktBytes s.col.pktLen.toNat) with
    | none =>
      by_cases hm : s.cfg.rateMode = .cbr
      · rw [conformShort_malformed_cbr hp hm] at h
        cases h
      · rw [conformShort_malformed hp hm hshort] at h
        cases h
        exact .inl ⟨rfl, rfl, .inr ⟨hm, rfl⟩⟩
    | some r =>
      rw [conformShort_padded hp hshort] at h
      cases h
      exact .inr ⟨rfl, rfl⟩
  · cases h
    exact .inl ⟨rfl, rfl, .inl (by omega)⟩

/-- Settles O51: by `brcConform_ok_cases` the new length is the goal, or the old one, short and flagged. -/
theorem successfulConformMeetsTheRateMode : Obligations.SuccessfulConformMeetsTheRateMode := by
  intro s t h herr
  obtain ⟨d, hd, rfl⟩ := body_ok_of_err_eq_zero h herr
  obtain ⟨hroom, hcases⟩ := brcConform_ok_cases hd
  have hadmits := admits_of_brcConform_ok hd
  have hle : s.col.pktLen.toNat ≤ goalOf s := le_conformGoal _ _ _
  have hcbrGoal (hm : s.cfg.rateMode = .cbr) : goalOf s = s.io.arg0.toNat := by
    rw [goalOf, hm, conformGoal_cbr, Nat.max_eq_right (hadmits.cbr hm)]
  have hcvbrGoal (hm : s.cfg.rateMode = .cvbr) : 17 * s.io.arg0.toNat / 20 ≤ goalOf s := by
    rw [goalOf, hm, conformGoal_cvbr]
    exact Nat.le_max_right _ _
  have hvbrGoal (hm : s.cfg.rateMode = .vbr) : goalOf s = s.col.pktLen.toNat := by
    rw [goalOf, hm, conformGoal_vbr]
  simp only [complete_col, complete_io_res0, complete_io_res1]
  obtain ⟨hstate, hres, hgoal⟩ | ⟨hlen, hres⟩ := hcases
  · rw [hstate, hres]
    refine ⟨fun hm => ?_, fun hm => ?_, fun _ => rfl, Nat.le_refl _, hle.trans hroom, rfl⟩
    · obtain hgoal | ⟨hne, -⟩ := hgoal
      · exact BitVec.eq_of_toNat_eq (hgoal.symm.trans (hcbrGoal hm))
      · exact absurd hm hne
    · exact hgoal.imp (fun heq => (hcvbrGoal hm).trans_eq heq) And.right
  · have hcap : s.col.outCap.toNat < 2 ^ 32 := s.col.outCap.isLt
    have htoNat : d.state.col.pktLen.toNat = goalOf s := by
      rw [hlen, BitVec.toNat_ofNat, Nat.mod_eq_of_lt (by omega)]
    refine ⟨fun hm => BitVec.eq_of_toNat_eq (htoNat.trans (hcbrGoal hm)), fun hm => .inl (htoNat ▸ hcvbrGoal hm),
      fun hm => BitVec.eq_of_toNat_eq (htoNat.trans (hvbrGoal hm)), ?_, ?_, hres.trans hlen.symm⟩
    · rwa [htoNat]
    · rwa [htoNat]

/-! ### PKT.PAD -/

/-- What `PKT.PAD` answers for a packet below its target (R196): `pktPad_eq` says where it stands. -/
def padShort (s : State) : CmdResult :=
  match parsePacket (s.pktBytes s.col.pktLen.toNat) with
  | none => .ok ⟨s, s.col.pktLen, flagNotExact⟩
  | some r =>
    .ok ⟨s.storePacket (reframe r (s.pktBytes s.col.pktLen.toNat) s.io.arg0.toNat) s.io.arg0.toNat, s.io.arg0, flagPadded⟩

/-- The body of `PKT.PAD` as one chain of cases, in the order of R196. -/
theorem pktPad_eq (s : State) : pktPad s =
    if 4096 < s.io.arg0.toNat then .error (.badOperand 0)
    else if s.col.pktLen.toNat = 0 then .error (.badOperand 1)
    else if s.io.arg0.toNat ≤ s.col.pktLen.toNat then .ok ⟨s, s.col.pktLen, 0⟩
    else if s.col.outCap.toNat < s.io.arg0.toNat then .error (.bufferTooSmall s.io.arg0)
    else padShort s := by
  simp only [pktPad, raiseIf_bind]
  rfl

theorem padShort_malformed {s : State} (hp : parsePacket (s.pktBytes s.col.pktLen.toNat) = none) :
    padShort s = .ok ⟨s, s.col.pktLen, 2⟩ := by
  simp only [padShort, hp]
  rfl

theorem padShort_padded {s : State} {r : Parsed} (hp : parsePacket (s.pktBytes s.col.pktLen.toNat) = some r) :
    padShort s = .ok ⟨s.storePacket (reframe r (s.pktBytes s.col.pktLen.toNat) s.io.arg0.toNat) s.io.arg0.toNat,
      s.io.arg0, flagPadded⟩ := by
  simp only [padShort, hp]

section Admitted
variable {s : State} (ht : s.io.arg0.toNat ≤ 4096) (hn : s.col.pktLen.toNat ≠ 0)
include ht hn

theorem pktPad_long (hlong : s.io.arg0.toNat ≤ s.col.pktLen.toNat) : pktPad s = .ok ⟨s, s.col.pktLen, 0⟩ := by
  rw [pktPad_eq, if_neg (Nat.not_lt.mpr ht), if_neg hn, if_pos hlong]

variable (hshort : s.col.pktLen.toNat < s.io.arg0.toNat)
include hshort

theorem pktPad_tooSmall (hroom : s.col.outCap.toNat < s.io.arg0.toNat) :
    pktPad s = .error (.bufferTooSmall s.io.arg0) := by
  rw [pktPad_eq, if_neg (Nat.not_lt.mpr ht), if_neg hn, if_neg (Nat.not_le.mpr hshort), if_pos hroom]

variable (hroom : s.io.arg0.toNat ≤ s.col.outCap.toNat)
include hroom

theorem pktPad_short : pktPad s = padShort s := by
  rw [pktPad_eq, if_neg (Nat.not_lt.mpr ht), if_neg hn, if_neg (Nat.not_le.mpr hshort), if_neg (Nat.not_lt.mpr hroom)]

end Admitted

theorem pktPad_at_target {s : State} (ht : s.io.arg0.toNat ≤ 4096) (hpos : s.io.arg0.toNat ≠ 0)
    (hlen : s.col.pktLen = s.io.arg0) : pktPad s = .ok ⟨s, s.io.arg0, 0⟩ := by
  rw [← hlen] at hpos
  rw [pktPad_long ht hpos (by rw [hlen]), hlen]

/-- Settles O52: the branches of `pktPad_eq`, the re-framed packet as `paddedState`. -/
theorem pktPadCaseByCase : Obligations.PktPadCaseByCase := by
  rintro s _ _ rfl rfl
  have herror {e : CmdError} (h : pktPad s = .error e) : exec .pktPad s = .next (s.takeError 0x42 e) :=
    exec_of_body_error (i := .pktPad) h
  have hok {d : Done} (h : pktPad s = .ok d) : exec .pktPad s = .next (d.state.complete 0x42 d.res0 d.res1) :=
    exec_of_body_ok (i := .pktPad) h
  refine ⟨fun ht => herror ?target, fun ht hn => herror ?empty, fun ht hn hlong => hok (pktPad_long ht hn hlong),
    fun ht hn hshort hroom => herror (pktPad_tooSmall ht hn hshort hroom),
    fun ht hn hshort hroom hp =>
      hok ((pktPad_short ht hn hshort hroom).trans (padShort_malformed hp)), fun r ht hn hshort hroom hp => ?padded⟩
  case target => rw [pktPad_eq, if_pos ht]
  case empty => rw [pktPad_eq, if_neg (Nat.not_lt.mpr ht), if_pos hn]
  case padded =>
    have hexec := hok ((pktPad_short ht hn hshort hroom).trans (padShort_padded hp))
    have hstate := paddedState_eq (s := s) (r := r) (goal := s.io.arg0.toNat) 0x42
    rw [ofNat_toNat_word] at hstate
    refine ⟨paddedState s r s.io.arg0.toNat 0x42, ?_, hstate, pktBytes_paddedState 0x42 hp hshort,
      fun a ha => byteAt_paddedState_outside 0x42 hp hshort ha⟩
    rw [hexec, paddedState, ofNat_toNat_word]

/-- After a success the next `PKT.PAD` answers the same length on the same state: a packet as long as the target stays, a
malformed one is still malformed, and a padded one is now as long as the target. -/
theorem pktPad_again {s : State} {d : Done} (h : pktPad s = .ok d) (w : Word) :
    ∃ flags, pktPad (d.state.complete w d.res0 d.res1) = .ok ⟨d.state.complete w d.res0 d.res1, d.res0, flags⟩ := by
  rw [pktPad_eq] at h
  split_ifs at h with ht hn hlong hroom
  all_goals rw [Nat.not_lt] at ht
  · cases h
    exact ⟨0, pktPad_long ht hn hlong⟩
  · rw [Nat.not_lt] at hroom
    rw [Nat.not_le] at hlong
    cases hp : parsePacket (s.pktBytes s.col.pktLen.toNat) with
    | none =>
      cases h.symm.trans (padShort_malformed hp)
      have hbody := pktPad_short (s := s.complete w s.col.pktLen 2) ht hn hlong hroom
      exact ⟨2, hbody.trans (padShort_malformed hp)⟩
    | some r =>
      cases h.symm.trans (padShort_padded hp)
      have hpos : s.io.arg0.toNat ≠ 0 := by omega
      exact ⟨0, pktPad_at_target ht hpos (ofNat_toNat_word s.io.arg0)⟩

/-- Settles O53, by `pktPad_again`: the second completion writes no buffer and no collaborator register. -/
theorem pktPadIsIdempotent : Obligations.PktPadIsIdempotent := by
  intro s t u h herr hagain
  obtain ⟨d, hd, rfl⟩ := body_ok_of_err_eq_zero h herr
  obtain ⟨flags, hbody⟩ := pktPad_again hd (encode .pktPad)
  cases (exec_of_body_ok (i := .pktPad) hbody).symm.trans hagain
  exact ⟨rfl, rfl, rfl, rfl⟩

end Sys2Proof.Machine
end

section
/-! PROOFS. Family 45_framer.md, the table lookups: `PKT.CHECK` (R210 to R214) and `PKT.TOC` (R215), each as the chain of
checks of its rule on a coder and a bandwidth. -/

namespace Sys2Proof.Machine

open Sys2Proof.Config

/-! ### The operands -/

theorem Coder.ofWord?_eq_none {w : Word} : Coder.ofWord? w = none ↔ w.toNat ∉ [1, 2, 3] := by
  unfold Coder.ofWord?
  split
  case h_4 h1 h2 h3 =>
    change _ ≠ _ at h1 h2 h3
    simp [h1, h2, h3]
  all_goals next hw => simp [hw]

section Effective
variable {s : State}

theorem effectiveBandwidth_eq_none :
    effectiveBandwidth s = none ↔ s.cfg.flags.lfe = false ∧ 4 < s.io.arg1.toNat := by
  rw [← Bandwidth.ofWord?_eq_none, effectiveBandwidth]
  cases s.cfg.flags.lfe <;> simp

theorem effectiveBandwidth_eq_some {bw : Bandwidth} : effectiveBandwidth s = some bw ↔
    (s.cfg.flags.lfe = true ∧ bw = .narrow) ∨ (s.cfg.flags.lfe = false ∧ bw.code = s.io.arg1) := by
  rw [← Bandwidth.ofWord?_eq_some, effectiveBandwidth]
  cases s.cfg.flags.lfe <;> simp [eq_comm]

/-- Only Auto without LFE reads the coder operand (R210, R213). -/
theorem effectiveCoder_eq_none :
    effectiveCoder s = none ↔ s.cfg.flags.lfe = false ∧ s.cfg.mode = .auto ∧ s.io.arg0.toNat ∉ [1, 2, 3] := by
  rw [← Coder.ofWord?_eq_none, effectiveCoder]
  cases s.cfg.flags.lfe with
  | true => simp
  | false => cases s.cfg.mode <;> simp

theorem effectiveCoder_lfe (hlfe : s.cfg.flags.lfe = true) : effectiveCoder s = some .transform := if_pos hlfe

theorem effectiveCoder_auto {coder : Coder} (hlfe : s.cfg.flags.lfe = false) (hmode : s.cfg.mode = .auto)
    (hcode : coder.code = s.io.arg0) : effectiveCoder s = some coder := by
  simp only [effectiveCoder, hlfe, hmode]
  exact Coder.ofWord?_eq_some.mpr hcode

/-- A configured mode other than Auto has the code of the coder it names (R26, R210). -/
theorem effectiveCoder_configured {coder : Coder} (hlfe : s.cfg.flags.lfe = false)
    (hcode : s.cfg.mode.code = coder.code) : effectiveCoder s = some coder := by
  cases hmode : s.cfg.mode <;> cases coder <;> rw [hmode] at hcode
  case speech.speech | transform.transform | hybrid.hybrid => simp [effectiveCoder, hlfe, hmode]
  all_goals exact absurd hcode (by decide)

end Effective

/-! ### The expansion and the TOC base -/

section Expand
variable {mode : Mode} (hmode : mode = .hybrid ∨ mode = .auto)
include hmode

theorem expand_1920 : expand mode 1920 = (2, 960) := by rw [expand, if_pos hmode, if_pos rfl]

theorem expand_2880 : expand mode 2880 = (3, 960) := by rw [expand, if_pos hmode, if_neg (by decide), if_pos rfl]

end Expand

/-- Speech and transform frames, and all frames but the two long ones, are one unit (R212). -/
theorem expand_whole {mode : Mode} {n : Nat} (h : (mode = .speech ∨ mode = .transform) ∨ (n ≠ 1920 ∧ n ≠ 2880)) :
    expand mode n = (1, n) := by
  rcases h with (rfl | rfl) | ⟨h1920, h2880⟩
  · rfl
  · rfl
  · rw [expand, if_neg h1920, if_neg h2880, ite_self]

theorem tocBase_eq (s : State) (cfg : Nat) : tocBase s cfg = cfg * 8 + if s.cfg.channels = 2 then 4 else 0 := by
  rw [tocBase, stereoBit, ite_mul, Nat.one_mul, Nat.zero_mul]

/-! ### PKT.CHECK -/

section PktCheck
variable {s : State}

theorem pktCheck_of_no_bandwidth (hbw : effectiveBandwidth s = none) : pktCheck s = .error (.badOperand 1) := by
  simp only [pktCheck, hbw, orRaise_none_bind]

theorem pktCheck_of_no_coder {bw : Bandwidth} (hbw : effectiveBandwidth s = some bw) (hcoder : effectiveCoder s = none) :
    pktCheck s = .error (.badOperand 0) := by
  simp only [pktCheck, hbw, hcoder, orRaise_some_bind, orRaise_none_bind]

/-- The body of `PKT.CHECK` on its effective coder and bandwidth, in the order of R210. -/
theorem pktCheck_eq {coder : Coder} {bw : Bandwidth} (hcoder : effectiveCoder s = some coder)
    (hbw : effectiveBandwidth s = some bw) : pktCheck s =
      if s.cfg.frameSize.toNat ∉ validSizes s.cfg.mode then .error (.invalidFrameSize s.cfg.frameSize)
      else if (expand s.cfg.mode s.cfg.frameSize.toNat).2 ∉ unitSet coder then
        .error (.invalidFrameSize s.cfg.frameSize)
      else if bw ∉ bwSet coder then .error (.badOperand 2)
      else .ok ⟨s,
        BitVec.ofNat 32 (tocBase s (cfgIndex coder bw (expand s.cfg.mode s.cfg.frameSize.toNat).2) +
          256 * (expand s.cfg.mode s.cfg.frameSize.toNat).1),
        BitVec.ofNat 32 ((expand s.cfg.mode s.cfg.frameSize.toNat).2 + 65536 * coder.code.toNat +
          1048576 * bw.code.toNat)⟩ := by
  simp only [pktCheck, hbw, hcoder, orRaise_some_bind, raiseIf_bind]
  rfl

end PktCheck

/-- Settles O55: the three ways to the effective coder and the three of the expansion, and the last branch of
`pktCheck_eq`. -/
theorem pktCheckPlansTheValidPacket : Obligations.PktCheckPlansTheValidPacket := by
  intro s coder bw m unit hsize hoperands hplan hunit hband
  have hbw : effectiveBandwidth s = some bw :=
    effectiveBandwidth_eq_some.mpr (hoperands.imp (fun ⟨hlfe, _, h⟩ => ⟨hlfe, h⟩) (fun ⟨hlfe, h, _⟩ => ⟨hlfe, h⟩))
  have hcoder : effectiveCoder s = some coder := by
    obtain ⟨hlfe, rfl, -⟩ | ⟨hlfe, -, ⟨hmode, hcode⟩ | hcode⟩ := hoperands
    · exact effectiveCoder_lfe hlfe
    · exact effectiveCoder_auto hlfe hmode hcode
    · exact effectiveCoder_configured hlfe hcode
  have hexpand : expand s.cfg.mode s.cfg.frameSize.toNat = (m, unit) := by
    obtain ⟨hmode, hlong, rfl, rfl⟩ | ⟨hmode, hlong, rfl, rfl⟩ | ⟨hwhole, rfl, rfl⟩ := hplan
    · rw [hlong]
      exact expand_1920 hmode
    · rw [hlong]
      exact expand_2880 hmode
    · exact expand_whole (hwhole.imp_right fun ⟨h1920, h2880⟩ =>
        ⟨mt (BitVec.eq_of_toNat_eq (y := 1920)) h1920, mt (BitVec.eq_of_toNat_eq (y := 2880)) h2880⟩)
  have hbody := pktCheck_eq hcoder hbw
  rw [hexpand, if_neg (not_not_intro hsize), if_neg (not_not_intro hunit), if_neg (not_not_intro hband),
    tocBase_eq] at hbody
  exact exec_of_body_ok (i := .pktCheck) hbody

/-- Settles O56: an operand without a value stops `PKT.CHECK` before its sizes; the others are the branches of
`pktCheck_eq`. -/
theorem pktCheckErrorsInOrder : Obligations.PktCheckErrorsInOrder := by
  intro s
  have herror {e : CmdError} (h : pktCheck s = .error e) : exec .pktCheck s = .next (s.takeError 0x50 e) :=
    exec_of_body_error (i := .pktCheck) h
  have hbandwidth (h : s.cfg.flags.lfe = true ∨ s.io.arg1.toNat ≤ 4) : ∃ bw, effectiveBandwidth s = some bw :=
    Option.ne_none_iff_exists'.mp fun hnone => by
      obtain ⟨hlfe, hbad⟩ := effectiveBandwidth_eq_none.mp hnone
      simp only [hlfe, Bool.false_eq_true, false_or] at h
      omega
  refine ⟨fun hlfe hbad => herror (pktCheck_of_no_bandwidth (effectiveBandwidth_eq_none.mpr ⟨hlfe, hbad⟩)),
    fun hlfe hbw hmode hbad => herror ?coderOperand, fun hread hsize => herror ?size,
    fun coder bw hcoder hbw hsize hunit => herror ?unit,
    fun coder bw hcoder hbw hsize hunit hband => herror ?band⟩
  case coderOperand =>
    obtain ⟨bw, hbw⟩ := hbandwidth (.inr hbw)
    exact pktCheck_of_no_coder hbw (effectiveCoder_eq_none.mpr ⟨hlfe, hmode, hbad⟩)
  case size =>
    obtain ⟨bw, hbw⟩ := hbandwidth (hread.imp_right And.left)
    obtain ⟨coder, hcoder⟩ : ∃ coder, effectiveCoder s = some coder :=
      Option.ne_none_iff_exists'.mp fun hnone => by
        obtain ⟨hlfe, hmode, hbad⟩ := effectiveCoder_eq_none.mp hnone
        simp [hlfe, hmode, hbad] at hread
    rw [pktCheck_eq hcoder hbw, if_pos hsize]
  case unit => rw [pktCheck_eq hcoder hbw, if_neg (not_not_intro hsize), if_pos hunit]
  case band =>
    rw [pktCheck_eq hcoder hbw, if_neg (not_not_intro hsize), if_neg (not_not_intro hunit), if_pos hband]

/-! ### PKT.TOC -/

section PktToc
variable {s : State}

theorem pktToc_of_no_coder (hcoder : Coder.ofWord? s.io.arg0 = none) : pktToc s = .error (.badOperand 0) := by
  simp only [pktToc, hcoder, orRaise_none_bind]

theorem pktToc_of_no_bandwidth {coder : Coder} (hcoder : Coder.ofWord? s.io.arg0 = some coder)
    (hbw : Bandwidth.ofWord? s.io.arg1 = none) : pktToc s = .error (.badOperand 1) := by
  simp only [pktToc, hcoder, hbw, orRaise_some_bind, orRaise_none_bind]

/-- The body of `PKT.TOC` on a coder and a bandwidth, in the order of R215. -/
theorem pktToc_eq {coder : Coder} {bw : Bandwidth} (hcoder : Coder.ofWord? s.io.arg0 = some coder)
    (hbw : Bandwidth.ofWord? s.io.arg1 = some bw) : pktToc s =
      if s.io.arg2.toNat ∉ unitSet coder then .error (.invalidFrameSize s.io.arg2)
      else if bw ∉ bwSet coder then .error (.badOperand 2)
      else .ok ⟨s, BitVec.ofNat 32 (tocBase s (cfgIndex coder bw s.io.arg2.toNat)),
        BitVec.ofNat 32 (cfgIndex coder bw s.io.arg2.toNat)⟩ := by
  simp only [pktToc, hcoder, hbw, orRaise_some_bind, raiseIf_bind]

end PktToc

/-- Settles O57: an operand without a value stops `PKT.TOC` before the lookup; the others are the branches of
`pktToc_eq`. -/
theorem pktTocLooksUpTheTable : Obligations.PktTocLooksUpTheTable := by
  intro s
  have herror {e : CmdError} (h : pktToc s = .error e) : exec .pktToc s = .next (s.takeError 0x51 e) :=
    exec_of_body_error (i := .pktToc) h
  have hok {r0 r1 : Word} (h : pktToc s = .ok ⟨s, r0, r1⟩) : exec .pktToc s = .next (s.complete 0x51 r0 r1) :=
    exec_of_body_ok (i := .pktToc) h
  refine ⟨fun coder bw hcoder hbw hunit hband => hok ?entry,
    fun hbad => herror (pktToc_of_no_coder (Coder.ofWord?_eq_none.mpr hbad)),
    fun hgood hbad => herror ?bandwidthOperand, fun coder hcoder hgood hunit => herror ?unit,
    fun coder bw hcoder hbw hunit hband => herror ?band⟩
  case entry =>
    rw [pktToc_eq (Coder.ofWord?_eq_some.mpr hcoder) (Bandwidth.ofWord?_eq_some.mpr hbw),
      if_neg (not_not_intro hunit), if_neg (not_not_intro hband), tocBase_eq]
  case bandwidthOperand =>
    obtain ⟨coder, hcoder⟩ : ∃ coder, Coder.ofWord? s.io.arg0 = some coder :=
      Option.ne_none_iff_exists'.mp fun hnone => Coder.ofWord?_eq_none.mp hnone hgood
    exact pktToc_of_no_bandwidth hcoder (Bandwidth.ofWord?_eq_none.mpr hbad)
  case unit =>
    obtain ⟨bw, hbw⟩ : ∃ bw, Bandwidth.ofWord? s.io.arg1 = some bw :=
      Option.ne_none_iff_exists'.mp fun hnone => Nat.not_lt.mpr hgood (Bandwidth.ofWord?_eq_none.mp hnone)
    rw [pktToc_eq (Coder.ofWord?_eq_some.mpr hcoder) hbw, if_pos hunit]
  case band =>
    rw [pktToc_eq (Coder.ofWord?_eq_some.mpr hcoder) (Bandwidth.ofWord?_eq_some.mpr hbw),
      if_neg (not_not_intro hunit), if_pos hband]

end Sys2Proof.Machine
end

section
/-! PROOFS. Family 45_framer.md, the packets the framer writes: `PKT.BUILD` (R216) and `PKT.CN` (R217). -/

namespace Sys2Proof.Machine

open Sys2Proof.Config

/-! ### The TOC base operand -/

theorem not_tocBaseBad {w : Word} (hhigh : w.extractLsb' 8 24 = 0) (hlow : w.extractLsb' 0 2 = 0) : ¬ tocBaseBad w :=
  not_or_intro (not_not_intro hhigh) (not_not_intro hlow)

/-! ### The units -/

theorem checkUnits_ok {lens : List Nat} (j : Nat) (h : ∀ l ∈ lens, l ≤ 1275) : checkUnits j lens = .ok () := by
  induction lens generalizing j with
  | nil => rfl
  | cons l lens ih =>
    obtain ⟨hl, hrest⟩ := List.forall_mem_cons.mp h
    rw [checkUnits, maxFrameBytes_eq, if_neg (Nat.not_lt.mpr hl), ih _ hrest]

/-- The first unit that is too long raises the error of its slot (R216). -/
theorem checkUnits_error {before rest : List Nat} {l : Nat} (j : Nat) (hbefore : ∀ x ∈ before, x ≤ 1275)
    (hl : 1275 < l) :
    checkUnits j (before ++ l :: rest) = .error (.badOperand (BitVec.ofNat 32 (2 + (j + before.length)))) := by
  induction before generalizing j with
  | nil => exact if_pos hl
  | cons x before ih =>
    obtain ⟨hx, hbefore⟩ := List.forall_mem_cons.mp hbefore
    rw [List.cons_append, checkUnits, maxFrameBytes_eq, if_neg (Nat.not_lt.mpr hx), ih _ hbefore, List.length_cons,
      Nat.add_right_comm j 1, Nat.add_assoc j]

theorem countByte_two : countByte true false 2 = 130 := rfl

theorem countByte_three : countByte true false 3 = 131 := rfl

theorem builtPacket_two (base : Byte) (u v : List Byte) :
    builtPacket base [u, v] = [base ||| 3, 130] ++ encLen u.length ++ u ++ v := by
  rw [builtPacket_of_length_ne_one base (units := [u, v]) (Nat.succ_succ_ne_one 0)]
  simp [buildMulti, countByte_two]

theorem builtPacket_three (base : Byte) (u v w : List Byte) :
    builtPacket base [u, v, w] = [base ||| 3, 131] ++ encLen u.length ++ encLen v.length ++ u ++ v ++ w := by
  rw [builtPacket_of_length_ne_one base (units := [u, v, w]) (Nat.succ_succ_ne_one 1)]
  simp [buildMulti, countByte_three]

/-! ### The body of PKT.BUILD -/

/-- What `PKT.BUILD` answers for units of admitted lengths (R216): `pktBuild_eq` says where it stands. -/
def buildUnits (s : State) (lens : List Nat) : CmdResult :=
  if s.col.outCap.toNat < buildSize lens then .error (.bufferTooSmall (BitVec.ofNat 32 (buildSize lens)))
  else .ok ⟨s.storePacket (builtPacket (s.io.arg0.extractLsb' 0 8) (unitPayloads s 0 lens)) (buildSize lens),
    BitVec.ofNat 32 (buildSize lens), if s.io.arg1.toNat = 1 then 0 else 3⟩

/-- The body of `PKT.BUILD` as one chain of cases, in the order of R216. -/
theorem pktBuild_eq (s : State) : pktBuild s =
    if s.col.subencStatus ≠ 0 then .error (.subEncoderFailure s.col.subencStatus)
    else if tocBaseBad s.io.arg0 then .error (.badOperand 0)
    else if s.io.arg1.toNat < 1 ∨ 3 < s.io.arg1.toNat then .error (.badOperand 1)
    else (checkUnits 0 (unitLens s s.io.arg1.toNat)).bind fun _ => buildUnits s (unitLens s s.io.arg1.toNat) := by
  simp only [pktBuild, raiseIf_bind]
  rfl

section Admitted
variable {s : State} (hstatus : s.col.subencStatus = 0) (hbase : ¬ tocBaseBad s.io.arg0)
include hstatus hbase

theorem pktBuild_badCount (hcount : s.io.arg1.toNat < 1 ∨ 3 < s.io.arg1.toNat) :
    pktBuild s = .error (.badOperand 1) := by
  rw [pktBuild_eq, if_neg (not_not_intro hstatus), if_neg hbase, if_pos hcount]

variable (hmin : 1 ≤ s.io.arg1.toNat) (hmax : s.io.arg1.toNat ≤ 3)
include hmin hmax

theorem pktBuild_units : pktBuild s =
    (checkUnits 0 (unitLens s s.io.arg1.toNat)).bind fun _ => buildUnits s (unitLens s s.io.arg1.toNat) := by
  rw [pktBuild_eq, if_neg (not_not_intro hstatus), if_neg hbase, if_neg (by omega)]

theorem pktBuild_longUnit {before rest : List Nat} {l : Nat}
    (hunits : unitLens s s.io.arg1.toNat = before ++ l :: rest) (hbefore : ∀ x ∈ before, x ≤ 1275) (hl : 1275 < l) :
    pktBuild s = .error (.badOperand (BitVec.ofNat 32 (2 + before.length))) := by
  rw [pktBuild_units hstatus hbase hmin hmax, hunits, checkUnits_error 0 hbefore hl, Nat.zero_add]
  rfl

theorem pktBuild_of_lens_le (hlens : ∀ l ∈ unitLens s s.io.arg1.toNat, l ≤ 1275) :
    pktBuild s = buildUnits s (unitLens s s.io.arg1.toNat) := by
  rw [pktBuild_units hstatus hbase hmin hmax, checkUnits_ok 0 hlens]
  rfl

end Admitted

/-- Settles O59: the branches of `pktBuild_eq`, the lengths by `pktBuild_longUnit` with the slots before the first long
one. -/
theorem pktBuildChecksInOrder : Obligations.PktBuildChecksInOrder := by
  intro s
  have herror {e : CmdError} (h : pktBuild s = .error e) : exec .pktBuild s = .next (s.takeError 0x52 e) :=
    exec_of_body_error (i := .pktBuild) h
  refine ⟨fun hstatus => herror ?status, fun hstatus hbad => herror ?base,
    fun hstatus hhigh hlow hcount => herror (pktBuild_badCount hstatus (not_tocBaseBad hhigh hlow) hcount),
    fun hstatus hhigh hlow hmin hmax => ?lengths⟩
  case status => rw [pktBuild_eq, if_pos hstatus]
  case base => rw [pktBuild_eq, if_neg (not_not_intro hstatus), if_pos hbad]
  case lengths =>
    have hlong {before rest : List Nat} {l : Nat} := pktBuild_longUnit (before := before) (rest := rest) (l := l)
      hstatus (not_tocBaseBad hhigh hlow) hmin hmax
    refine ⟨fun h0 => herror ?first, fun h0 hm h1 => herror ?second, fun h0 h1 hm h2 => herror ?third⟩
    case first =>
      obtain ⟨k, hk⟩ := Nat.exists_eq_add_of_le' hmin
      exact hlong (before := []) (by rw [hk]; rfl) (by simp) h0
    case second =>
      obtain ⟨k, hk⟩ := Nat.exists_eq_add_of_le' hm
      exact hlong (before := [s.col.frmLen0.toNat]) (by rw [hk]; rfl) (by simpa using h0) h1
    case third =>
      exact hlong (before := [s.col.frmLen0.toNat, s.col.frmLen1.toNat]) (by rw [hm]; rfl) (by simp [h0, h1]) h2

/-! ### The built packet -/

theorem byteAt_storePacket_frame (s : State) (q : List Byte) (len : Nat) {a : Nat}
    (ha : a < 0x1000 ∨ 0x1000 + q.length ≤ a) : (s.storePacket q len).byteAt a = s.byteAt a := by
  rw [byteAt_storePacket, if_neg (by rw [pktBase]; omega)]

/-- The units of a state are the ones whose packet is `q`, of `total` bytes (R216). -/
structure UnitsGive (s : State) (total : Nat) (q : List Byte) : Prop where
  min : 1 ≤ s.io.arg1.toNat
  max : s.io.arg1.toNat ≤ 3
  lens : ∀ l ∈ unitLens s s.io.arg1.toNat, l ≤ 1275
  size : buildSize (unitLens s s.io.arg1.toNat) = total
  packet : builtPacket (s.io.arg0.extractLsb' 0 8) (unitPayloads s 0 (unitLens s s.io.arg1.toNat)) = q

section UnitsGive
variable {s : State}

theorem unitsGive_one (hm : s.io.arg1 = 1) (h0 : s.col.frmLen0.toNat ≤ 1275) :
    UnitsGive s (1 + s.col.frmLen0.toNat) (s.io.arg0.extractLsb' 0 8 :: s.frmBytes 0 s.col.frmLen0.toNat) := by
  have hunits : unitLens s s.io.arg1.toNat = [s.col.frmLen0.toNat] := by rw [hm]; rfl
  refine ⟨by rw [hm]; decide, by rw [hm]; decide, ?_, by rw [hunits]; rfl, by rw [hunits]; rfl⟩
  rw [hunits]
  exact List.forall_mem_singleton.mpr h0

theorem unitsGive_two (hm : s.io.arg1 = 2) (h0 : s.col.frmLen0.toNat ≤ 1275) (h1 : s.col.frmLen1.toNat ≤ 1275) :
    UnitsGive s (2 + encLenSize s.col.frmLen0.toNat + (s.col.frmLen0.toNat + s.col.frmLen1.toNat))
      ([s.io.arg0.extractLsb' 0 8 ||| 3, 130] ++ encLen s.col.frmLen0.toNat ++
        s.frmBytes 0 s.col.frmLen0.toNat ++ s.frmBytes 1 s.col.frmLen1.toNat) := by
  have hunits : unitLens s s.io.arg1.toNat = [s.col.frmLen0.toNat, s.col.frmLen1.toNat] := by rw [hm]; rfl
  refine ⟨by rw [hm]; decide, by rw [hm]; decide, ?_, by rw [hunits]; rfl, ?_⟩
  · simp [hunits, h0, h1]
  · rw [hunits, unitPayloads, unitPayloads, unitPayloads, builtPacket_two, length_frmBytes]

theorem unitsGive_three (hm : s.io.arg1 = 3) (h0 : s.col.frmLen0.toNat ≤ 1275) (h1 : s.col.frmLen1.toNat ≤ 1275)
    (h2 : s.col.frmLen2.toNat ≤ 1275) :
    UnitsGive s (2 + (encLenSize s.col.frmLen0.toNat + encLenSize s.col.frmLen1.toNat) +
        (s.col.frmLen0.toNat + s.col.frmLen1.toNat + s.col.frmLen2.toNat))
      ([s.io.arg0.extractLsb' 0 8 ||| 3, 131] ++ encLen s.col.frmLen0.toNat ++ encLen s.col.frmLen1.toNat ++
        s.frmBytes 0 s.col.frmLen0.toNat ++ s.frmBytes 1 s.col.frmLen1.toNat ++ s.frmBytes 2 s.col.frmLen2.toNat) := by
  have hunits : unitLens s s.io.arg1.toNat = [s.col.frmLen0.toNat, s.col.frmLen1.toNat, s.col.frmLen2.toNat] := by
    rw [hm]; rfl
  refine ⟨by rw [hm]; decide, by rw [hm]; decide, ?_, ?_, ?_⟩
  · simp [hunits, h0, h1, h2]
  · simp [hunits, buildSize, Nat.add_assoc]
  · rw [hunits, unitPayloads, unitPayloads, unitPayloads, unitPayloads, builtPacket_three, length_frmBytes,
      length_frmBytes]

theorem UnitsGive.length {total : Nat} {q : List Byte} (h : UnitsGive s total q) : q.length = total := by
  rw [← h.packet, length_builtPacket, map_length_unitPayloads, h.size]

/-- `PKT.BUILD` on admitted operands answers with the packet its units give (R216). -/
theorem UnitsGive.pktBuild {total : Nat} {q : List Byte} (h : UnitsGive s total q) (hstatus : s.col.subencStatus = 0)
    (hbase : ¬ tocBaseBad s.io.arg0) : pktBuild s =
      if s.col.outCap.toNat < total then .error (.bufferTooSmall (BitVec.ofNat 32 total))
      else .ok ⟨s.storePacket q total, BitVec.ofNat 32 total, if s.io.arg1.toNat = 1 then 0 else 3⟩ := by
  rw [pktBuild_of_lens_le hstatus hbase h.min h.max h.lens, buildUnits, h.size, h.packet]

end UnitsGive

/-- Settles O58: `UnitsGive` says the packet of one, two and three units, `UnitsGive.pktBuild` the answer, and the stored
packet reads back. -/
theorem pktBuildWritesThePacket : Obligations.PktBuildWritesThePacket := by
  rintro s _ _ _ total _ q rfl rfl rfl rfl hhigh hlow hstatus hunits
  have hgive : UnitsGive s total q := by
    obtain ⟨hm, h0, rfl, rfl⟩ | ⟨hm, h0, h1, rfl, rfl⟩ | ⟨hm, h0, h1, h2, rfl, rfl⟩ := hunits
    · exact unitsGive_one hm h0
    · exact unitsGive_two hm h0 h1
    · exact unitsGive_three hm h0 h1 h2
  have hbody := hgive.pktBuild hstatus (not_tocBaseBad hhigh hlow)
  have hcode : s.io.arg1.toNat = 1 ↔ s.io.arg1 = 1 := ⟨BitVec.eq_of_toNat_eq (y := 1), congrArg BitVec.toNat⟩
  refine ⟨fun hsmall => exec_of_body_error (i := .pktBuild) (hbody.trans (if_pos hsmall)), fun hroom =>
    ⟨_, exec_of_body_ok (i := .pktBuild) (hbody.trans (if_neg (Nat.not_lt.mpr hroom))), ?whole, ?packet,
      fun a ha => ?outside⟩⟩
  case whole => simp only [hcode]; rfl
  case packet => rw [pktBytes_complete, pktBytes_storePacket _ _ hgive.length]
  case outside => rw [byteAt_complete, byteAt_storePacket_frame _ _ _ (by rwa [hgive.length])]

/-! ### PKT.CN -/

/-- The body of `PKT.CN` as one chain of cases, in the order of R217. -/
theorem pktCn_eq (s : State) : pktCn s =
    if tocBaseBad s.io.arg0 then .error (.badOperand 0)
    else if s.col.outCap.toNat < 1 then .error (.bufferTooSmall 1)
    else .ok ⟨s.storePacket [s.io.arg0.extractLsb' 0 8] 1, 1, 0⟩ := by
  simp only [pktCn, raiseIf_bind]

/-- Settles O60: the branches of `pktCn_eq`, and the byte of the stored packet. -/
theorem pktCnWritesOneByte : Obligations.PktCnWritesOneByte := by
  intro s
  have herror {e : CmdError} (h : pktCn s = .error e) : exec .pktCn s = .next (s.takeError 0x53 e) :=
    exec_of_body_error (i := .pktCn) h
  refine ⟨fun hbad => herror ?base, fun hhigh hlow hcap => herror ?room, fun hhigh hlow hcap =>
    ⟨_, exec_of_body_ok (i := .pktCn) (d := ⟨s.storePacket [s.io.arg0.extractLsb' 0 8] 1, 1, 0⟩) ?body, rfl, ?byte,
      fun a ha => ?outside⟩⟩
  case base => rw [pktCn_eq, if_pos hbad]
  case room => rw [pktCn_eq, if_neg (not_tocBaseBad hhigh hlow), if_pos (by rw [hcap]; decide)]
  case body =>
    have hpos : s.col.outCap.toNat ≠ 0 := mt (BitVec.eq_of_toNat_eq (y := 0)) hcap
    exact (pktCn_eq s).trans ((if_neg (not_tocBaseBad hhigh hlow)).trans (if_neg (by omega)))
  case byte => rw [byteAt_complete, byteAt_storePacket]; rfl
  case outside =>
    rw [byteAt_complete, byteAt_storePacket_frame _ _ _ (by rw [List.length_singleton]; omega)]

end Sys2Proof.Machine
end

section
/-! PROOFS. Family 46_system.md: `NOP` (R230) and `RESET` (R231). -/

namespace Sys2Proof.Machine

open Sys2Proof.Config

/-- Settles O26: the body of `NOP` leaves the state and has results 0, and its completion writes the word 0 to `CMD`. -/
theorem nopWritesOnlyTheCompletion : Obligations.NopWritesOnlyTheCompletion := by
  intro s
  have hbody : commandBody specNum .nop s = .ok ⟨s, 0, 0⟩ := rfl
  exact exec_of_body_ok hbody

/-- Settles O27: the body of `RESET` puts the DTX and FEC records at `resetDtx` and `resetFec`, whose fields are all 0. -/
theorem resetCommandClearsDtxAndFecOnly : Obligations.ResetCommandClearsDtxAndFecOnly := by
  intro s
  have hbody : commandBody specNum .reset s = .ok ⟨{ s with dtx := resetDtx, fec := resetFec }, 0, 0⟩ := rfl
  exact exec_of_body_ok hbody

end Sys2Proof.Machine
end

section
/-! PROOFS. Family 60_exceptions.md: the two completions and the seven errors (R251, R256), and that every command ends in
one of the two (R250, R287). -/

namespace Sys2Proof.Machine

open Sys2Proof.Config

/-! ### The completions and the errors -/

/-- Settles O7: each clause is the definition's own equation, `complete` and `takeError` as record updates, `code` and
`info` by the error's constructor. -/
theorem completionsWriteOnlyTheCompletionRegisters : Obligations.CompletionsWriteOnlyTheCompletionRegisters := by
  refine ⟨fun s w r0 r1 => ?success, fun s w e => ?error, fun x => ?codes⟩
  case success => rfl
  case error => rfl
  case codes => simp only [CmdError.code, CmdError.info, and_self]

/-- The codes of the errors are 1 to 7 (R251). -/
theorem code_mem_range (e : CmdError) : 1 ≤ e.code.toNat ∧ e.code.toNat ≤ 7 := by
  cases e <;> simp [CmdError.code]

/-! ### Every command completes -/

/-- No command writes a command register before its completion (R256): an effect is on the records, the packet length and
the memory. -/
theorem CommandEffect.io_eq {P : NumCfg} {i : Instr} {s u : State} (h : CommandEffect P s i u) : u.io = s.io := by
  rw [h.frame]

/-- Settles O8: a command answers a next state (`exec_eq_finish`) and counts once (`exec_completes`); that state is an
effect completed, which leaves the pending bit (`CommandEffect.io_eq`), or an error taken, whose code is in 1 to 7
(`code_mem_range`). -/
theorem everyCommandEndsInSuccessOrError : Obligations.EveryCommandEndsInSuccessOrError := by
  intro i s
  have hnext := exec_eq_finish i s
  obtain ⟨hcmd, hseq, hvalid⟩ := exec_completes hnext
  refine ⟨_, hnext, hvalid, hcmd, hseq, ?_⟩
  obtain ⟨u, r0, r1, hu, ht⟩ | ⟨e, ht⟩ := exec_effect hnext
  · rw [ht]
    have hpend : (u.complete (encode i) r0 r1).io.irqPend = s.io.irqPend := by rw [complete_io_irqPend, hu.io_eq]
    exact .inl ⟨rfl, rfl, hpend⟩
  · rw [ht]
    obtain ⟨hpos, hmax⟩ := code_mem_range e
    exact .inr ⟨hpos, hmax, rfl, rfl, rfl⟩

end Sys2Proof.Machine
end
